-- ==== Sys2Proof/Word.lean ====
section
/-!
DEFINITION. The word types of the block (spec 00_scope R7, R10, R11): every value is an unsigned integer of a
fixed width; bit 0 is the least significant bit.
-/

namespace Sys2Proof

/-- A u32: every register, command word and address (R23, R60, R91). -/
abbrev Word := BitVec 32

/-- A u8: one cell of the byte buffer, one colour channel (R44, R94). -/
abbrev Byte := BitVec 8

/-- A u3: a symbol, one cell of the symbol buffer (R7, R45). -/
abbrev Sym := BitVec 3

/-- A u24: a colour, R in bits 23:16, G in 15:8, B in 7:0 (R68). -/
abbrev Rgb := BitVec 24

end Sys2Proof
end

