-- ==== Sys2Proof/Syntax.lean ====
section
/-!
DEFINITION. The nine commands of the block, one constructor per row of spec/opcode_table.json (spec 30_encoding R96).
-/

namespace Sys2Proof

/-- The commands of R96. The operand of a format S, C or F command has exactly the width of its field
(R93-R95), so no operand out of range can be written. -/
inductive Instr where
  /-- `HDR.ENC` (R111), format Z. -/
  | hdrEnc
  /-- `HDR.DEC` (R112), format Z. -/
  | hdrDec
  /-- `BP.PACK` (R132), format Z. -/
  | bpPack
  /-- `BP.UNPACK` (R134), format Z. -/
  | bpUnpack
  /-- `PAL.S2C sym` (R151), format S. -/
  | palS2c (sym : Sym)
  /-- `PAL.C2S rgb` (R155), format C. -/
  | palC2s (r g b : Byte)
  /-- `CRC.CALC` and `CRC.CALC cont` (R172), format F: `cont` is bit 0 of the argument. -/
  | crcCalc (cont : BitVec 1)
  /-- `CRC.VERIFY` (R174), format Z. -/
  | crcVerify
  /-- `SRST` (R190), format Z. -/
  | srst
deriving DecidableEq, Repr

end Sys2Proof
end

