-- ==== Sys2Proof/Decode.lean ====
section
/-!
DEFINITION. Decoding and encoding of command words (spec 30_encoding R90-R97). There is one length, 32 bits, and
no byte order: a command word is the data of a host write to `CMD` (R68, R74).
-/

namespace Sys2Proof

/-- Why a word is illegal (R97): the decoder refuses by one of these names. -/
inductive DecodeError where
  /-- `op = 0x00` or `op` in 0x0A .. 0xFF. -/
  | unassignedOp (op : Byte)
  /-- An assigned `op` with a must-be-zero bit of its argument set. -/
  | reservedArgBits (op : Byte)
deriving DecidableEq, Repr

/-- `op = w[31:24]` (R91). -/
def opField (w : Word) : Byte := w.extractLsb' 24 8

/-- `arg = w[23:0]` (R91). -/
def argField (w : Word) : BitVec 24 := w.extractLsb' 0 24

/-- A format Z command: the word is legal iff the whole argument is zero (R92). -/
def decodeZ (i : Instr) (op : Byte) (arg : BitVec 24) : Except DecodeError Instr :=
  if arg = 0#24 then .ok i else .error (.reservedArgBits op)

/-- `PAL.S2C`: bits 23:3 must be zero, bits 2:0 are the symbol (R93). -/
def decodeS (op : Byte) (arg : BitVec 24) : Except DecodeError Instr :=
  if arg.extractLsb' 3 21 = 0#21 then .ok (.palS2c (arg.extractLsb' 0 3))
  else .error (.reservedArgBits op)

/-- `PAL.C2S`: every argument is legal (R94). -/
def decodeC (arg : BitVec 24) : Except DecodeError Instr :=
  .ok (.palC2s (arg.extractLsb' 16 8) (arg.extractLsb' 8 8) (arg.extractLsb' 0 8))

/-- `CRC.CALC`: bits 23:1 must be zero, bit 0 is `cont` (R95). -/
def decodeF (op : Byte) (arg : BitVec 24) : Except DecodeError Instr :=
  if arg.extractLsb' 1 23 = 0#23 then .ok (.crcCalc (arg.extractLsb' 0 1))
  else .error (.reservedArgBits op)

/-- The decoder: total on the 2^32 words; a word that is no command is refused by name (R96, R97). -/
def decode (w : Word) : Except DecodeError Instr :=
  match (opField w).toNat with
  | 0x01 => decodeZ .hdrEnc (opField w) (argField w)
  | 0x02 => decodeZ .hdrDec (opField w) (argField w)
  | 0x03 => decodeZ .bpPack (opField w) (argField w)
  | 0x04 => decodeZ .bpUnpack (opField w) (argField w)
  | 0x05 => decodeS (opField w) (argField w)
  | 0x06 => decodeC (argField w)
  | 0x07 => decodeF (opField w) (argField w)
  | 0x08 => decodeZ .crcVerify (opField w) (argField w)
  | 0x09 => decodeZ .srst (opField w) (argField w)
  | _ => .error (.unassignedOp (opField w))

/-- The word of a command, from the formats and opcode numbers of R91-R96: `op ++ arg`. -/
def encode : Instr → Word
  | .hdrEnc => 0x01#8 ++ 0#24
  | .hdrDec => 0x02#8 ++ 0#24
  | .bpPack => 0x03#8 ++ 0#24
  | .bpUnpack => 0x04#8 ++ 0#24
  | .palS2c sym => 0x05#8 ++ (0#21 ++ sym)
  | .palC2s r g b => 0x06#8 ++ (r ++ (g ++ b))
  | .crcCalc cont => 0x07#8 ++ (0#23 ++ cont)
  | .crcVerify => 0x08#8 ++ 0#24
  | .srst => 0x09#8 ++ 0#24

/-- The `match` and `mask` of the row a command belongs to (table of R96): a word selects the row iff
`w AND mask = match`. -/
def tableRow : Instr → Word × Word
  | .hdrEnc => (0x01000000#32, 0xFFFFFFFF#32)
  | .hdrDec => (0x02000000#32, 0xFFFFFFFF#32)
  | .bpPack => (0x03000000#32, 0xFFFFFFFF#32)
  | .bpUnpack => (0x04000000#32, 0xFFFFFFFF#32)
  | .palS2c _ => (0x05000000#32, 0xFFFFFFF8#32)
  | .palC2s _ _ _ => (0x06000000#32, 0xFF000000#32)
  | .crcCalc _ => (0x07000000#32, 0xFFFFFFFE#32)
  | .crcVerify => (0x08000000#32, 0xFFFFFFFF#32)
  | .srst => (0x09000000#32, 0xFFFFFFFF#32)

/-- The word selects the command's row of the opcode map: `(w AND mask) = match` (R96). -/
def selectsRow (w : Word) (i : Instr) : Bool :=
  w &&& (tableRow i).2 == (tableRow i).1

/-- The command the decoder reads from an instruction of `nbits` bits numbered as spec/opcode_table.json numbers
them. Every row has one 32-bit word; bits at and above `nbits` are taken as 0. -/
def decodeTableWord (nbits w : Nat) : Option Instr :=
  (decode (BitVec.ofNat 32 (w % 2 ^ nbits))).toOption

end Sys2Proof
end

