-- ==== Sys2Proof/Config.lean ====
section
/-!
DEFINITION. What one implementation of the block fixes: the two buffer sizes (spec 00_scope R6; 92 D3; 93 U5).
-/

namespace Sys2Proof

/-- The implementation parameters `BB_SIZE` and `SB_SIZE` (R6): each an integer in 0 .. 2^32 - 1, which is what
32 bits hold. They are readable in `CAP_BB` and `CAP_SB` (R42, R43) and never change. -/
structure Config where
  /-- `BB_SIZE`: the number of bytes in the byte buffer. -/
  bbSize : Word
  /-- `SB_SIZE`: the number of 3-bit cells in the symbol buffer. -/
  sbSize : Word
deriving DecidableEq, Repr

/-- The sizes `State.reset` is given. DESIGN CHOICE (log 1), unsafe: the spec leaves both sizes open (R6); 64 and
128 are the sizes its own test vectors use (95, Conventions). Statements quantify over every pair of sizes. -/
def Config.chosen : Config := { bbSize := 64#32, sbSize := 128#32 }

end Sys2Proof
end

