-- ==== Sys2Proof/Machine/State.lean ====
section
/-!
DEFINITION. The state of the block and of the host that drives it (spec 10_state, 20_memory), and what a step can
stop with. The block's state is the registers and the two buffers (R20, R47); the host's accesses and the responses
it got are held beside them, because one host access is one step and the step takes the access as its input
(R5, R21; log 3).
-/

namespace Sys2Proof.Machine

open Sys2Proof

/-- UDCODE's error taxonomy and the block's own two faults, one numbering (table of R227). The block raises five of
them; `decompressionError`, `alignmentFailure` and `inputTooLarge` are the host's (R208) and only reserve their
codes. -/
inductive ErrKind where
  | headerCorrupt
  | checksumMismatch
  | decompressionError
  | alignmentFailure
  | unreadableCell
  | inputTooLarge
  | illegalCommand
  | operandRange
deriving DecidableEq, Repr

/-- What `raise F(info)` records (R221): the fault's kind and its information word. -/
structure FaultRecord where
  kind : ErrKind
  info : Word
deriving DecidableEq, Repr

/-- The six kinds of host access (R61-R63). An address is a u32 in every space (R60). -/
inductive HostAccess where
  /-- `RegRead(off)` (R61). -/
  | regRead (off : Word)
  /-- `RegWrite(off, w)` (R61); at offset 0 it issues the command word `w` (R90). -/
  | regWrite (off : Word) (w : Word)
  /-- `BBRead(a)` (R62). -/
  | bbRead (a : Word)
  /-- `BBWrite(a, v)` (R62). -/
  | bbWrite (a : Word) (v : Byte)
  /-- `SBRead(a)` (R63). -/
  | sbRead (a : Word)
  /-- `SBWrite(a, s)` (R63). -/
  | sbWrite (a : Word) (v : Sym)
deriving DecidableEq, Repr

/-- What the host can do: one access, or a hard reset between two accesses (R250, R212). -/
inductive HostAction where
  | access (a : HostAccess)
  /-- `rst` asserted and released (R250). -/
  | hardReset
deriving DecidableEq, Repr

/-- The response to one host access (R61-R64): `resp = OK`, with data on a read, or `resp = ERROR`. The data of an
`ERROR` read is absent (R64; log 8). -/
inductive Reply where
  /-- `OK` to a write. -/
  | ok
  /-- `OK` and the u32 of a register read. -/
  | okWord (data : Word)
  /-- `OK` and the u8 of a byte-buffer read. -/
  | okByte (data : Byte)
  /-- `OK` and the u3 of a symbol-buffer read. -/
  | okSym (data : Sym)
  /-- `ERROR`: the access is refused and changes nothing (R64). -/
  | error
deriving DecidableEq, Repr

/-- The state. A register that has *zero* bit ranges is held as its implemented bits alone, so that they read 0 and
ignore writes for host and commands alike (R23; log 9). -/
structure State where
  /-- `BB_SIZE` and `SB_SIZE`, what `CAP_BB` and `CAP_SB` read (R6, R42, R43); no step changes it (log 1). -/
  cfg : Config
  /-- `ERR.CODE` (R25). -/
  err : BitVec 8
  /-- `ERR_INFO` (R26). -/
  errInfo : Word
  /-- `BADDR` (R27). -/
  baddr : Word
  /-- `BLEN` (R28). -/
  blen : Word
  /-- `SADDR` (R29). -/
  saddr : Word
  /-- `SLEN` (R30). -/
  slen : Word
  /-- `HDR_CSIZE` (R31). -/
  hdrCsize : Word
  /-- `HDR_OSIZE` (R32). -/
  hdrOsize : Word
  /-- `HDR_CRC` (R33). -/
  hdrCrc : Word
  /-- `HDR_FLAGS.COMPRESSED` (R34). -/
  hdrFlags : BitVec 1
  /-- `HDR_AVAIL` (R35). -/
  hdrAvail : Word
  /-- `CRC_VALUE` (R36). -/
  crcValue : Word
  /-- `PAL_CTRL.METRIC` (R37). -/
  palCtrl : BitVec 1
  /-- `PAL_THRESH` (R38). -/
  palThresh : Word
  /-- `PAL_RGB` bits 23:0 (R39). -/
  palRgb : Rgb
  /-- `PAL_SYM` bits 2:0 (R40). -/
  palSym : Sym
  /-- `PAL_DIST` (R41). -/
  palDist : Word
  /-- The byte buffer `BB` (R44): its cells in the canonical form of `Memory.wf`. -/
  bb : List Host.Cell
  /-- The symbol buffer `SB` (R45): its cells in the canonical form of `Memory.wf`. -/
  sb : List (Nat × Sym)
  /-- MODEL's OWN (log 3): the host's actions still to come, the next one first. -/
  script : List HostAction
  /-- MODEL's OWN (log 3): the responses the host has got, the newest first. -/
  replies : List Reply
deriving DecidableEq, Repr

/-- Reasons a step can stop with a fault: none. By R238 the block is never stuck and never hangs: a fault of the
spec is a next state with `ERR` set (R221), and an invalid access is answered `ERROR` (R64). Nothing raises a
member of this type, since it has none. -/
inductive Fault where
deriving DecidableEq, Repr

/-- Reasons a step can be refused: only an instruction whose meaning is not written. -/
inductive Refusal where
  /-- Raised by an arm of `exec` alone, for an instruction without a meaning; no arm does so now. Safe: the model
  stops where the hardware goes on. -/
  | notModelled (mnemonic : String)
deriving DecidableEq, Repr

/-- The block just after hard reset (table of R48, R250): every register 0. The sizes are `Config.chosen` (log 1),
every buffer cell reads 0 (log 2: the spec leaves the contents open), and the host has nothing to do yet (log 3). -/
def State.reset : State where
  cfg := Config.chosen
  err := 0#8
  errInfo := 0#32
  baddr := 0#32
  blen := 0#32
  saddr := 0#32
  slen := 0#32
  hdrCsize := 0#32
  hdrOsize := 0#32
  hdrCrc := 0#32
  hdrFlags := 0#1
  hdrAvail := 0#32
  crcValue := 0#32
  palCtrl := 0#1
  palThresh := 0#32
  palRgb := 0#24
  palSym := 0#3
  palDist := 0#32
  bb := []
  sb := []
  script := []
  replies := []

end Sys2Proof.Machine
end

