-- ==== Sys2Proof/Machine/Flags.lean ====
section
/-!
DEFINITION. The block's one status flag, the fault latch (spec 10_state R25, R46, R47; 60_exceptions R227-R232):
its codes, the faulted state, the `fault` line and the records the commands raise. No command writes a flag as a
side effect of succeeding (R46).
-/

namespace Sys2Proof.Machine

open Sys2Proof

/-- The fault codes (table of R227). -/
def ErrKind.code : ErrKind → BitVec 8
  | .headerCorrupt => 0x01#8
  | .checksumMismatch => 0x02#8
  | .decompressionError => 0x03#8
  | .alignmentFailure => 0x04#8
  | .unreadableCell => 0x05#8
  | .inputTooLarge => 0x06#8
  | .illegalCommand => 0x80#8
  | .operandRange => 0x81#8

/-- The faulted state: exactly `ERR.CODE != 0` (R25). -/
def State.faulted (s : State) : Bool := s.err != 0#8

/-- The output line `fault` (R47, R233): 1 exactly when `ERR.CODE != 0`. -/
def State.faultLine (s : State) : Bool := s.faulted

/-- `OperandRange` with sub-cause 1, 2 or 3 (R232). -/
def operandRange (cause : Nat) : FaultRecord :=
  { kind := .operandRange, info := BitVec.ofNat 32 cause }

/-- `HeaderCorrupt` with sub-cause 1, 2, 3 or 4 (R228). -/
def headerCorrupt (cause : Nat) : FaultRecord :=
  { kind := .headerCorrupt, info := BitVec.ofNat 32 cause }

/-- `ChecksumMismatch`: the information word is the computed CRC (R229). -/
def checksumMismatch (computed : Word) : FaultRecord :=
  { kind := .checksumMismatch, info := computed }

/-- `UnreadableCell`: the observed colour in bits 23:0 (R230). -/
def unreadableCell (r g b : Byte) : FaultRecord :=
  { kind := .unreadableCell, info := 0#8 ++ (r ++ (g ++ b)) }

/-- `IllegalCommand`: the offending command word (R231). -/
def illegalCommand (w : Word) : FaultRecord :=
  { kind := .illegalCommand, info := w }

end Sys2Proof.Machine
end

