-- ==== Sys2Proof/Machine/Ops.lean ====
section
/-!
DEFINITION. The named operations over buffers and registers, the fault latch and its two exits. Buffers: spec
20_memory R60, R62, R63, R72. Taking a fault: 60_exceptions R221. Leaving the faulted state: 44_control R190 and
70_reset R250. Running a command under the latch: 60_exceptions R223.
-/

namespace Sys2Proof.Machine

open Sys2Proof

/-! ### Buffers: cells of `w` bits at natural-number addresses -/

/-- What a cell that is not listed reads as. DESIGN CHOICE (log 2), unsafe for claims that start at `State.reset`:
the spec leaves the power-up contents open (R44, R45, U1). A state with other contents lists them. -/
def Memory.unlisted (w : Nat) : BitVec w := 0#w

/-- The canonical form: addresses strictly rising and no cell listed with the value an unlisted cell reads as, so
that equal contents are equal lists. -/
def Memory.wf {w : Nat} : List (Nat × BitVec w) → Bool
  | [] => true
  | [(_, x)] => x != Memory.unlisted w
  | (k, x) :: (k', y) :: m => x != Memory.unlisted w && decide (k < k') && Memory.wf ((k', y) :: m)

/-- Every listed cell lies inside a buffer of `size` cells (R71: a buffer is contiguous from 0 to its size). -/
def Memory.within {w : Nat} (size : Nat) (m : List (Nat × BitVec w)) : Bool :=
  m.all fun c => decide (c.1 < size)

/-- The cell at address `a` (`BB[a]`, `SB[a]` of R11). -/
def Memory.read {w : Nat} : List (Nat × BitVec w) → Nat → BitVec w
  | [], _ => Memory.unlisted w
  | (k, x) :: m, a =>
    if k < a then Memory.read m a else if k = a then x else Memory.unlisted w

/-- The buffer with cell `a` set to `v` and every other cell as it was. Writing what an unlisted cell reads as
takes the cell out of the list. -/
def Memory.write {w : Nat} : List (Nat × BitVec w) → Nat → BitVec w → List (Nat × BitVec w)
  | [], a, v => if v = Memory.unlisted w then [] else [(a, v)]
  | (k, x) :: m, a, v =>
    if k < a then (k, x) :: Memory.write m a v
    else if k = a then
      if v = Memory.unlisted w then m.dropWhile (fun c => decide (c.1 ≤ a)) else (a, v) :: m
    else if v = Memory.unlisted w then (k, x) :: m else (a, v) :: (k, x) :: m

/-- `MemRead(_, a, n)` (R11): the `n` cells from address `a`, in ascending order. -/
def Memory.readRange {w : Nat} (m : List (Nat × BitVec w)) (a n : Nat) : List (BitVec w) :=
  (List.range n).map fun i => Memory.read m (a + i)

/-- `MemWrite(_, a, n, cells)` (R11): the listed cells at `a`, `a + 1`, ... -/
def Memory.writeRange {w : Nat} (m : List (Nat × BitVec w)) (a : Nat) : List (BitVec w) → List (Nat × BitVec w)
  | [] => m
  | v :: vs => Memory.writeRange (Memory.write m a v) (a + 1) vs

/-! ### Register updates the commands make -/

/-- Replace the byte buffer (R44). -/
def State.setBB (s : State) (m : List Host.Cell) : State := { s with bb := m }

/-- Replace the symbol buffer (R45). -/
def State.setSB (s : State) (m : List (Nat × Sym)) : State := { s with sb := m }

/-- `x[SLEN] <- n` (R30). -/
def State.setSlen (s : State) (n : Word) : State := { s with slen := n }

/-- Write the four header registers (R31-R34), as a successful `HDR.DEC` does. -/
def State.setHeader (s : State) (csize osize crc : Word) (flag : BitVec 1) : State :=
  { s with hdrCsize := csize, hdrOsize := osize, hdrCrc := crc, hdrFlags := flag }

/-- `x[CRC_VALUE] <- v` (R36). -/
def State.setCrcValue (s : State) (v : Word) : State := { s with crcValue := v }

/-- `x[PAL_RGB] <- c` (R39). -/
def State.setPalRgb (s : State) (c : Rgb) : State := { s with palRgb := c }

/-- `x[PAL_SYM] <- k` and `x[PAL_DIST] <- m` (R40, R41). -/
def State.setPalMatch (s : State) (k : Sym) (m : Word) : State := { s with palSym := k, palDist := m }

/-! ### The host's side -/

/-- The host gets a response (R61-R63). -/
def State.pushReply (s : State) (r : Reply) : State := { s with replies := r :: s.replies }

/-- The host's remaining actions (R5; log 3). -/
def State.setScript (s : State) (l : List HostAction) : State := { s with script := l }

/-! ### The fault latch -/

/-- `raise F(info)` (R221), the one way a fault is taken: `ERR` and `ERR_INFO` are written and nothing else is. -/
def State.raise (s : State) (f : FaultRecord) : State :=
  { s with err := f.kind.code, errInfo := f.info }

/-- The session reset (R190): the fifteen session registers to 0; `PAL_CTRL`, `PAL_THRESH`, the `CAP` constants and
the buffers stay. -/
def State.sessionReset (s : State) : State :=
  { s with
    err := 0#8, errInfo := 0#32
    baddr := 0#32, blen := 0#32, saddr := 0#32, slen := 0#32
    hdrCsize := 0#32, hdrOsize := 0#32, hdrCrc := 0#32, hdrFlags := 0#1, hdrAvail := 0#32
    crcValue := 0#32
    palRgb := 0#24, palSym := 0#3, palDist := 0#32 }

/-- Hard reset (R250, R251): every register at its reset value, the buffers left alone. -/
def State.hardReset (s : State) : State :=
  { s.sessionReset with palCtrl := 0#1, palThresh := 0#32 }

/-- Run a command's pseudocode under the latch. In the faulted state the command is refused: nothing changes
(R223). Otherwise either all its writes take effect together, or it raises and nothing but the latch changes
(R11, R90, R221). -/
def issue (body : State → Except FaultRecord State) (s : State) : Host.Outcome State Fault Refusal :=
  if s.faulted then .next s
  else match body s with
    | .ok t => .next t
    | .error f => .next (s.raise f)

/-- Answer the host once a command has run: the `CMD` write gets its response whatever the command did
(R90, R221, R223). -/
def withReply (r : Reply) : Host.Outcome State Fault Refusal → Host.Outcome State Fault Refusal
  | .next t => .next (t.pushReply r)
  | .fault f => .fault f
  | .refused x => .refused x

end Sys2Proof.Machine
end

