-- ==== Sys2Proof/Machine/Control.lean ====
section
/-!
DEFINITION. The control unit's one command: `SRST` (spec 44_control R190). There is no other system command and no
control transfer (R191, R192).
-/

namespace Sys2Proof.Machine

open Sys2Proof

/-- `SRST` (R190): accepted in every state, the faulted one included (R223). -/
def execSrst (s : State) : Host.Outcome State Fault Refusal := .next s.sessionReset

end Sys2Proof.Machine
end

