-- ==== Sys2Proof/Machine/Operands.lean ====
section
/-!
DEFINITION. The operands of the commands: byte order (spec 20_memory R67, 00_scope R11), symbol counts (00_scope
R10), buffer ranges (20_memory R72) and the ranges each command names by `BADDR`, `BLEN`, `SADDR`, `SLEN`
(10_state R27-R30).
-/

namespace Sys2Proof.Machine

open Sys2Proof

/-- `HDR_LEN = 13` (R7). -/
def hdrLen : Nat := 13

/-- `ceil_div(a, b) = (a + b - 1) div b` (R10). -/
def ceilDiv (a b : Nat) : Nat := (a + b - 1) / b

/-- `nsym(L) = ceil_div(8 * L, 3)` (R10, R131): the number of symbols that `L` bytes pack into. -/
def nsym (len : Nat) : Nat := ceilDiv (8 * len) 3

/-- `be32(b0, b1, b2, b3)`, the first byte most significant (R11, R67). -/
def be32 (b0 b1 b2 b3 : Byte) : Word := b0 ++ (b1 ++ (b2 ++ b3))

/-- `be32_bytes(v) = (v[31:24], v[23:16], v[15:8], v[7:0])` (R11, R67). -/
def be32Bytes (v : Word) : List Byte :=
  [v.extractLsb' 24 8, v.extractLsb' 16 8, v.extractLsb' 8 8, v.extractLsb' 0 8]

/-- The range of `count` cells from `base` lies inside a buffer of `size` cells: `base + count <= size` in exact
arithmetic (R72). An empty range fits iff `base <= size`. -/
def rangeFits (base : Word) (count : Nat) (size : Word) : Bool :=
  decide (base.toNat + count ≤ size.toNat)

/-- The byte range of `count` bytes at `BADDR` lies inside `BB` (R232, sub-cause 1). -/
def State.bytesFit (s : State) (count : Nat) : Bool := rangeFits s.baddr count s.cfg.bbSize

/-- The symbol range of `count` symbols at `SADDR` lies inside `SB` (R232, sub-cause 2). -/
def State.symsFit (s : State) (count : Nat) : Bool := rangeFits s.saddr count s.cfg.sbSize

/-- The `count` bytes from `BB[BADDR]` (R27). -/
def State.bytesAt (s : State) (count : Nat) : List Byte := Memory.readRange s.bb s.baddr.toNat count

/-- The `count` symbols from `SB[SADDR]` (R29). -/
def State.symsAt (s : State) (count : Nat) : List Sym := Memory.readRange s.sb s.saddr.toNat count

/-- Write bytes from `BB[BADDR]` on (R27). -/
def State.storeBytes (s : State) (bytes : List Byte) : State :=
  s.setBB (Memory.writeRange s.bb s.baddr.toNat bytes)

/-- Write symbols from `SB[SADDR]` on (R29). -/
def State.storeSyms (s : State) (syms : List Sym) : State :=
  s.setSB (Memory.writeRange s.sb s.saddr.toNat syms)

end Sys2Proof.Machine
end

