-- ==== Sys2Proof/Machine/Crc.lean ====
section
/-!
DEFINITION. The CRC-32 unit: `CRC.CALC` and `CRC.VERIFY` (spec 43_crc32 R170-R174).
-/

namespace Sys2Proof.Machine

open Sys2Proof

/-- The generator polynomial in its bit-reflected form (R170, R171). -/
def crcPoly : Word := 0xEDB88320#32

/-- The initial shift register and final XOR (R170, R171). -/
def crcMask : Word := 0xFFFFFFFF#32

/-- One bit of the update loop (R171). -/
def crcBit (c : Word) : Word := if c.getLsbD 0 then (c >>> 1) ^^^ crcPoly else c >>> 1

/-- One byte of the update loop: XOR the byte in, then eight bit steps (R171). -/
def crcByte (c : Word) (b : Byte) : Word := Nat.iterate crcBit 8 (c ^^^ b.setWidth 32)

/-- `crc32_update(prev, B)` (R171). -/
def crc32Update (prev : Word) (b : List Byte) : Word :=
  b.foldl crcByte (prev ^^^ crcMask) ^^^ crcMask

/-- `crc32(B) = crc32_update(0, B)` (R171). -/
def crc32 (b : List Byte) : Word := crc32Update 0#32 b

/-- Pseudocode of `CRC.CALC` (R172). -/
def crcCalcBody (cont : BitVec 1) (s : State) : Except FaultRecord State :=
  if s.bytesFit s.blen.toNat then
    .ok (s.setCrcValue
      (crc32Update (if cont = 1#1 then s.crcValue else 0#32) (s.bytesAt s.blen.toNat)))
  else .error (operandRange 1)

/-- `CRC.CALC` and `CRC.CALC cont` (R172). -/
def execCrcCalc (cont : BitVec 1) (s : State) : Host.Outcome State Fault Refusal := issue (crcCalcBody cont) s

/-- Pseudocode of `CRC.VERIFY` (R174). -/
def crcVerifyBody (s : State) : Except FaultRecord State :=
  if s.crcValue = s.hdrCrc then .ok s else .error (checksumMismatch s.crcValue)

/-- `CRC.VERIFY` (R174). -/
def execCrcVerify (s : State) : Host.Outcome State Fault Refusal := issue crcVerifyBody s

end Sys2Proof.Machine
end

