-- ==== Sys2Proof/Machine/Header.lean ====
section
/-!
DEFINITION. The header codec: `HDR.ENC` and `HDR.DEC` (spec 40_header_codec R110-R113).
-/

namespace Sys2Proof.Machine

open Sys2Proof

/-- The fields of the 13-byte header, with the whole flags byte (layout table of R110). -/
structure Header where
  csize : Word
  osize : Word
  crc : Word
  flags : Byte
deriving DecidableEq, Repr

/-- The 13 bytes of a header: three big-endian words, then the flags byte (R110, R67). -/
def headerBytes (h : Header) : List Byte :=
  be32Bytes h.csize ++ be32Bytes h.osize ++ be32Bytes h.crc ++ [h.flags]

/-- The header in the first 13 of the listed bytes (R110, R112). -/
def parseHeader (b : List Byte) : Header where
  csize := be32 (b.getD 0 0#8) (b.getD 1 0#8) (b.getD 2 0#8) (b.getD 3 0#8)
  osize := be32 (b.getD 4 0#8) (b.getD 5 0#8) (b.getD 6 0#8) (b.getD 7 0#8)
  crc := be32 (b.getD 8 0#8) (b.getD 9 0#8) (b.getD 10 0#8) (b.getD 11 0#8)
  flags := b.getD 12 0#8

/-- The header the registers hold: bits 7:1 of the flags byte are written as 0 (R111). -/
def State.header (s : State) : Header where
  csize := s.hdrCsize
  osize := s.hdrOsize
  crc := s.hdrCrc
  flags := s.hdrFlags.setWidth 8

/-- Pseudocode of `HDR.ENC` (R111). -/
def hdrEncBody (s : State) : Except FaultRecord State :=
  if s.bytesFit hdrLen then .ok (s.storeBytes (headerBytes s.header))
  else .error (operandRange 1)

/-- `HDR.ENC` (R111). -/
def execHdrEnc (s : State) : Host.Outcome State Fault Refusal := issue hdrEncBody s

/-- Checks 2, 3 and 4 of a header against the symbols available (R112, R113): the sub-cause of the first that
fails. -/
def headerFlaw (h : Header) (avail : Word) : Option Nat :=
  if h.flags.extractLsb' 1 7 ≠ 0#7 then some 2
  else if avail.toNat < nsym h.csize.toNat then some 3
  else if h.flags.getLsbD 0 = false ∧ h.csize ≠ h.osize then some 4
  else none

/-- The end of `HDR.DEC` once 13 bytes are known to be there (R112): the header registers, or `HeaderCorrupt`. -/
def acceptHeader (h : Header) (s : State) : Except FaultRecord State :=
  match headerFlaw h s.hdrAvail with
  | some cause => .error (headerCorrupt cause)
  | none => .ok (s.setHeader h.csize h.osize h.crc (h.flags.setWidth 1))

/-- Pseudocode of `HDR.DEC` (R112). -/
def hdrDecBody (s : State) : Except FaultRecord State :=
  if s.bytesFit s.blen.toNat then
    if s.blen.toNat < hdrLen then .error (headerCorrupt 1)
    else acceptHeader (parseHeader (s.bytesAt hdrLen)) s
  else .error (operandRange 1)

/-- `HDR.DEC` (R112). -/
def execHdrDec (s : State) : Host.Outcome State Fault Refusal := issue hdrDecBody s

end Sys2Proof.Machine
end

