-- ==== Sys2Proof/Machine/Packer.lean ====
section
/-!
DEFINITION. The bit packer: `BP.PACK` and `BP.UNPACK` (spec 41_bit_packer R130-R134).
-/

namespace Sys2Proof.Machine

open Sys2Proof

/-- Bit `k` of the bit stream of a byte sequence: bytes ascending, bit 7 of each byte first (R130); positions from
8 L on are pad bits, 0 (R131). -/
def streamBit (b : List Byte) (k : Nat) : Bool :=
  if k < 8 * b.length then (b.getD (k / 8) 0#8).getLsbD (7 - k % 8) else false

/-- `4*b2 + 2*b1 + b0` (R130): the first bit taken is the symbol's most significant. -/
def symOfBits (b2 b1 b0 : Bool) : Sym :=
  BitVec.ofNat 3 (4 * b2.toNat + 2 * b1.toNat + b0.toNat)

/-- Symbol `j` of the packing (R130). -/
def packSym (b : List Byte) (j : Nat) : Sym :=
  symOfBits (streamBit b (3 * j)) (streamBit b (3 * j + 1)) (streamBit b (3 * j + 2))

/-- The packing of a byte sequence: `nsym(L)` symbols (R131). -/
def pack (b : List Byte) : List Sym :=
  (List.range (nsym b.length)).map (packSym b)

/-- Bit `k` of the bit stream of a symbol sequence: bit 2 of each symbol first (R133). -/
def symStreamBit (l : List Sym) (k : Nat) : Bool :=
  (l.getD (k / 3) 0#3).getLsbD (2 - k % 3)

/-- Byte `i` of the unpacking: stream bits 8i .. 8i+7, the first most significant (R133). -/
def unpackByte (l : List Sym) (i : Nat) : Byte :=
  BitVec.ofNat 8 (((List.range 8).map fun t => (symStreamBit l (8 * i + t)).toNat * 2 ^ (7 - t)).sum)

/-- The unpacking of a symbol sequence to exactly `len` bytes (R133). -/
def unpack (l : List Sym) (len : Nat) : List Byte :=
  (List.range len).map (unpackByte l)

/-- Pseudocode of `BP.PACK` (R132). -/
def bpPackBody (s : State) : Except FaultRecord State :=
  if s.bytesFit s.blen.toNat then
    if s.symsFit (nsym s.blen.toNat) then
      .ok ((s.storeSyms (pack (s.bytesAt s.blen.toNat))).setSlen (BitVec.ofNat 32 (nsym s.blen.toNat)))
    else .error (operandRange 2)
  else .error (operandRange 1)

/-- `BP.PACK` (R132). -/
def execBpPack (s : State) : Host.Outcome State Fault Refusal := issue bpPackBody s

/-- Pseudocode of `BP.UNPACK` (R134). -/
def bpUnpackBody (s : State) : Except FaultRecord State :=
  if s.bytesFit s.blen.toNat then
    if s.symsFit s.slen.toNat then
      if s.slen.toNat < nsym s.blen.toNat then .error (operandRange 3)
      else .ok (s.storeBytes (unpack (s.symsAt (nsym s.blen.toNat)) s.blen.toNat))
    else .error (operandRange 2)
  else .error (operandRange 1)

/-- `BP.UNPACK` (R134). -/
def execBpUnpack (s : State) : Host.Outcome State Fault Refusal := issue bpUnpackBody s

end Sys2Proof.Machine
end

