-- ==== Sys2Proof/Machine/Palette.lean ====
section
/-!
DEFINITION. The palette mapper: `PAL.S2C` and `PAL.C2S` (spec 42_palette_mapper R150-R155).
-/

namespace Sys2Proof.Machine

open Sys2Proof

/-- The palette (table of R150), the u24 form; a constant. -/
def palette (i : Sym) : Rgb :=
  match i.toNat with
  | 0 => 0x000000#24
  | 1 => 0xFF0000#24
  | 2 => 0x00FF00#24
  | 3 => 0x0000FF#24
  | 4 => 0xFFFF00#24
  | 5 => 0xFF00FF#24
  | 6 => 0x00FFFF#24
  | _ => 0xFFFFFF#24

/-- The red channel, bits 23:16 (R68). -/
def redOf (c : Rgb) : Byte := c.extractLsb' 16 8

/-- The green channel, bits 15:8 (R68). -/
def greenOf (c : Rgb) : Byte := c.extractLsb' 8 8

/-- The blue channel, bits 7:0 (R68). -/
def blueOf (c : Rgb) : Byte := c.extractLsb' 0 8

/-- `|x - y|` of two channels (R10, R152). -/
def channelDist (x y : Byte) : Nat := (x.toNat - y.toNat) + (y.toNat - x.toNat)

/-- The metric value of palette index `i` for an observed colour (R152): Manhattan for `METRIC = 0`, squared
Euclidean for `METRIC = 1`. -/
def metricValue (metric : BitVec 1) (r g b : Byte) (i : Sym) : Nat :=
  let dr := channelDist r (redOf (palette i))
  let dg := channelDist g (greenOf (palette i))
  let db := channelDist b (blueOf (palette i))
  if metric = 0#1 then dr + dg + db else dr * dr + dg * dg + db * db

/-- `d[0] .. d[7]` (R155). -/
def metricValues (metric : BitVec 1) (r g b : Byte) : List Nat :=
  (List.range 8).map fun i => metricValue metric r g b (BitVec.ofNat 3 i)

/-- `m = min(d[0], ..., d[7])` (R153). -/
def nearestDist (metric : BitVec 1) (r g b : Byte) : Nat :=
  (metricValues metric r g b).foldl min (metricValue metric r g b 0#3)

/-- `k = least i with d[i] = m` (R153). -/
def nearestSym (metric : BitVec 1) (r g b : Byte) : Sym :=
  BitVec.ofNat 3 ((metricValues metric r g b).idxOf (nearestDist metric r g b))

/-- Pseudocode of `PAL.S2C` (R151). -/
def palS2cBody (sym : Sym) (s : State) : Except FaultRecord State :=
  .ok (s.setPalRgb (palette sym))

/-- `PAL.S2C sym` (R151). -/
def execPalS2c (sym : Sym) (s : State) : Host.Outcome State Fault Refusal := issue (palS2cBody sym) s

/-- Pseudocode of `PAL.C2S` (R155): the threshold test is strict, on naturals (R154). -/
def palC2sBody (r g b : Byte) (s : State) : Except FaultRecord State :=
  if s.palThresh.toNat < nearestDist s.palCtrl r g b then .error (unreadableCell r g b)
  else .ok (s.setPalMatch (nearestSym s.palCtrl r g b) (BitVec.ofNat 32 (nearestDist s.palCtrl r g b)))

/-- `PAL.C2S rgb` (R155). -/
def execPalC2s (r g b : Byte) (s : State) : Host.Outcome State Fault Refusal := issue (palC2sBody r g b) s

end Sys2Proof.Machine
end

