-- ==== Sys2Proof/Machine/Dispatch.lean ====
section
/-!
DEFINITION. What issuing a command does in any state, one arm per command (spec 30_encoding R96).
-/

namespace Sys2Proof.Machine

open Sys2Proof

/-- The effect of a legal command word on the state (R90, R96, R223). -/
def exec (i : Instr) (s : State) : Host.Outcome State Fault Refusal :=
  match i with
  | .hdrEnc => Sys2Proof.Machine.execHdrEnc s
  | .hdrDec => Sys2Proof.Machine.execHdrDec s
  | .bpPack => Sys2Proof.Machine.execBpPack s
  | .bpUnpack => Sys2Proof.Machine.execBpUnpack s
  | .palS2c sym => Sys2Proof.Machine.execPalS2c sym s
  | .palC2s r g b => Sys2Proof.Machine.execPalC2s r g b s
  | .crcCalc cont => Sys2Proof.Machine.execCrcCalc cont s
  | .crcVerify => Sys2Proof.Machine.execCrcVerify s
  | .srst => Sys2Proof.Machine.execSrst s

end Sys2Proof.Machine
end

