-- ==== Sys2Proof/Machine/Registers.lean ====
section
/-!
DEFINITION. The register space `REG`: offsets, access classes, reads and writes (spec 10_state R23-R43, R48;
20_memory R61). Every register read and write of the host goes through here.
-/

namespace Sys2Proof.Machine

open Sys2Proof

/-- The twenty registers (table of R48). -/
inductive Reg where
  | cmd | err | errInfo | baddr | blen | saddr | slen
  | hdrCsize | hdrOsize | hdrCrc | hdrFlags | hdrAvail
  | crcValue | palCtrl | palThresh | palRgb | palSym | palDist | capBB | capSB
deriving DecidableEq, Repr

/-- Access classes (R23). -/
inductive RegClass where
  /-- The host reads and writes it. -/
  | RW
  /-- The host reads it; a host write is accepted and has no effect. -/
  | RO
  /-- The host writes it; a host read returns 0. -/
  | WO
deriving DecidableEq, Repr

/-- The byte offset of a register (R24-R43, table of R48). -/
def Reg.offset : Reg → Nat
  | .cmd => 0x00 | .err => 0x04 | .errInfo => 0x08 | .baddr => 0x0C | .blen => 0x10
  | .saddr => 0x14 | .slen => 0x18 | .hdrCsize => 0x1C | .hdrOsize => 0x20 | .hdrCrc => 0x24
  | .hdrFlags => 0x28 | .hdrAvail => 0x2C | .crcValue => 0x30 | .palCtrl => 0x34 | .palThresh => 0x38
  | .palRgb => 0x3C | .palSym => 0x40 | .palDist => 0x44 | .capBB => 0x48 | .capSB => 0x4C

/-- The access class of a register (R24-R43, table of R48). -/
def Reg.accessClass : Reg → RegClass
  | .cmd => .WO
  | .baddr | .blen | .saddr | .slen => .RW
  | .hdrCsize | .hdrOsize | .hdrCrc | .hdrFlags | .hdrAvail => .RW
  | .palCtrl | .palThresh => .RW
  | .err | .errInfo | .crcValue | .palRgb | .palSym | .palDist | .capBB | .capSB => .RO

/-- The register at a byte offset; `none` makes the access invalid (R61: valid iff `off mod 4 = 0` and
`off <= 0x4C`). -/
def Reg.ofOffset (off : Word) : Option Reg :=
  match off.toNat with
  | 0x00 => some .cmd | 0x04 => some .err | 0x08 => some .errInfo | 0x0C => some .baddr | 0x10 => some .blen
  | 0x14 => some .saddr | 0x18 => some .slen | 0x1C => some .hdrCsize | 0x20 => some .hdrOsize
  | 0x24 => some .hdrCrc | 0x28 => some .hdrFlags | 0x2C => some .hdrAvail | 0x30 => some .crcValue
  | 0x34 => some .palCtrl | 0x38 => some .palThresh | 0x3C => some .palRgb | 0x40 => some .palSym
  | 0x44 => some .palDist | 0x48 => some .capBB | 0x4C => some .capSB
  | _ => none

/-- What a register reads (R24-R43): *zero* ranges read 0, `CMD` reads 0, the `CAP` registers read the sizes. -/
def State.readReg (s : State) : Reg → Word
  | .cmd => 0#32
  | .err => s.err.setWidth 32
  | .errInfo => s.errInfo
  | .baddr => s.baddr
  | .blen => s.blen
  | .saddr => s.saddr
  | .slen => s.slen
  | .hdrCsize => s.hdrCsize
  | .hdrOsize => s.hdrOsize
  | .hdrCrc => s.hdrCrc
  | .hdrFlags => s.hdrFlags.setWidth 32
  | .hdrAvail => s.hdrAvail
  | .crcValue => s.crcValue
  | .palCtrl => s.palCtrl.setWidth 32
  | .palThresh => s.palThresh
  | .palRgb => s.palRgb.setWidth 32
  | .palSym => s.palSym.setWidth 32
  | .palDist => s.palDist
  | .capBB => s.cfg.bbSize
  | .capSB => s.cfg.sbSize

/-- What a host write to a register stores (R23): an `RW` register stores the word outside its *zero* ranges, in any
state of the block; an `RO` register ignores it. `CMD` stores nothing (R24): what a write to it does is
`issueWord`. -/
def State.writeReg (s : State) (r : Reg) (w : Word) : State :=
  match r with
  | .baddr => { s with baddr := w }
  | .blen => { s with blen := w }
  | .saddr => { s with saddr := w }
  | .slen => { s with slen := w }
  | .hdrCsize => { s with hdrCsize := w }
  | .hdrOsize => { s with hdrOsize := w }
  | .hdrCrc => { s with hdrCrc := w }
  | .hdrFlags => { s with hdrFlags := w.setWidth 1 }
  | .hdrAvail => { s with hdrAvail := w }
  | .palCtrl => { s with palCtrl := w.setWidth 1 }
  | .palThresh => { s with palThresh := w }
  | .cmd | .err | .errInfo | .crcValue | .palRgb | .palSym | .palDist | .capBB | .capSB => s

end Sys2Proof.Machine
end

