-- ==== Sys2Proof/Machine/HostPort.lean ====
section
/-!
DEFINITION. The host port: what each host access does and answers (spec 20_memory R61-R65), the `CMD` write that
issues a command (30_encoding R90, 60_exceptions R223), and hard reset (70_reset R250).
-/

namespace Sys2Proof.Machine

open Sys2Proof

/-- A word presented to `CMD` (R24, R90): a command word runs its command; any other word raises `IllegalCommand`
(R97, R231), or is refused in the faulted state (R223). -/
def issueWord (w : Word) (s : State) : Host.Outcome State Fault Refusal :=
  match decode w with
  | .ok i => exec i s
  | .error _ => issue (fun _ => .error (illegalCommand w)) s

/-- `RegRead(off)` (R61): the response; the state does not change (R70). -/
def State.regReadReply (s : State) (off : Word) : Reply :=
  match Reg.ofOffset off with
  | some r => .okWord (s.readReg r)
  | none => .error

/-- `RegWrite(off, w)` (R61, R23, R90). -/
def regWrite (off w : Word) (s : State) : Host.Outcome State Fault Refusal :=
  match Reg.ofOffset off with
  | none => .next (s.pushReply .error)
  | some r =>
    if r = .cmd then withReply .ok (issueWord w s)
    else .next ((s.writeReg r w).pushReply .ok)

/-- `BBRead(a)` (R62). -/
def State.bbReadReply (s : State) (a : Word) : Reply :=
  if a.toNat < s.cfg.bbSize.toNat then .okByte (Memory.read s.bb a.toNat) else .error

/-- `BBWrite(a, v)` (R62). -/
def State.bbWrite (s : State) (a : Word) (v : Byte) : State :=
  if a.toNat < s.cfg.bbSize.toNat then (s.setBB (Memory.write s.bb a.toNat v)).pushReply .ok
  else s.pushReply .error

/-- `SBRead(a)` (R63). -/
def State.sbReadReply (s : State) (a : Word) : Reply :=
  if a.toNat < s.cfg.sbSize.toNat then .okSym (Memory.read s.sb a.toNat) else .error

/-- `SBWrite(a, v)` (R63). -/
def State.sbWrite (s : State) (a : Word) (v : Sym) : State :=
  if a.toNat < s.cfg.sbSize.toNat then (s.setSB (Memory.write s.sb a.toNat v)).pushReply .ok
  else s.pushReply .error

/-- One host access, completed (R5, R65, R73): accepted in every state of the block. -/
def hostAccess (a : HostAccess) (s : State) : Host.Outcome State Fault Refusal :=
  match a with
  | .regRead off => .next (s.pushReply (s.regReadReply off))
  | .regWrite off w => regWrite off w s
  | .bbRead a => .next (s.pushReply (s.bbReadReply a))
  | .bbWrite a v => .next (s.bbWrite a v)
  | .sbRead a => .next (s.pushReply (s.sbReadReply a))
  | .sbWrite a v => .next (s.sbWrite a v)

/-- One action of the host: an access, or a hard reset between two accesses (R250, R253). -/
def hostAction (act : HostAction) (s : State) : Host.Outcome State Fault Refusal :=
  match act with
  | .access a => hostAccess a s
  | .hardReset => .next s.hardReset

/-- One step (R5, R73): the host's next action, done to completion before the one after it; with no action to come
the block is idle and holds its state (R237; log 4). -/
def hostStep (s : State) : Host.Outcome State Fault Refusal :=
  match s.script with
  | [] => .next s
  | act :: rest => hostAction act (s.setScript rest)

end Sys2Proof.Machine
end

