-- ==== Sys2Proof/Machine/Step.lean ====
section
/-!
DEFINITION. The step function and the placing of a command where the next step takes it (spec 00_scope R5,
30_encoding R90).
-/

namespace Sys2Proof.Machine

open Sys2Proof

/-- One host access is one step (R5). -/
def step (s : State) : Host.Outcome State Fault Refusal := hostStep s

/-- The state whose host next writes the instruction's word to `CMD` (R90), before the actions it already has to
come (log 5). An instruction is one 32-bit word; its bits from `nbits` on are 0. -/
def State.withFetchWord (s : State) (nbits w : Nat) : State :=
  s.setScript (.access (.regWrite 0#32 (BitVec.ofNat 32 (w % 2 ^ nbits))) :: s.script)

end Sys2Proof.Machine
end

