-- ==== Sys2Proof/WellFormed.lean ====
section
/-!
DEFINITION. Well-formedness of a command word (spec 30_encoding R91-R97): its `op` selects a command and the
must-be-zero bits of that command's format are zero. An `Instr` term needs no check of its own: its operand types
have the fields' widths. The decoder (Decode.lean) is written without these checks, so that the two can be held
against each other.
-/

namespace Sys2Proof

/-- The four formats of R91. -/
inductive Format where
  /-- R92: no operand, all 24 argument bits zero. -/
  | Z
  /-- R93: a symbol in bits 2:0. -/
  | S
  /-- R94: a colour in bits 23:0. -/
  | C
  /-- R95: one flag in bit 0. -/
  | F
deriving DecidableEq, Repr

/-- The bits of the argument that the format requires to be zero, as a mask (table of R91). -/
def Format.mustBeZero : Format → BitVec 24
  | .Z => 0xFFFFFF#24
  | .S => 0xFFFFF8#24
  | .C => 0x000000#24
  | .F => 0xFFFFFE#24

/-- The argument obeys its format (R92-R95). -/
def Format.argOk (f : Format) (arg : BitVec 24) : Bool :=
  arg &&& f.mustBeZero == 0#24

/-- The format of each assigned `op` (R96); `none` for `op = 0x00` and `op` in 0x0A .. 0xFF (R97). -/
def formatOfOp (op : Byte) : Option Format :=
  match op.toNat with
  | 0x01 => some .Z
  | 0x02 => some .Z
  | 0x03 => some .Z
  | 0x04 => some .Z
  | 0x05 => some .S
  | 0x06 => some .C
  | 0x07 => some .F
  | 0x08 => some .Z
  | 0x09 => some .Z
  | _ => none

/-- A command word is well-formed: its `op` (bits 31:24) is assigned and its `arg` (bits 23:0) obeys the format.
By R97 every other word is illegal. -/
def wellFormedWord (w : Word) : Bool :=
  match formatOfOp (w.extractLsb' 24 8) with
  | none => false
  | some f => f.argOk (w.extractLsb' 0 24)

end Sys2Proof
end

