-- ==== Sys2Proof/Safety.lean ====
section
/-!
DEFINITION. What a legal state of the block is: the invariant that hard reset establishes and every step keeps.
-/

namespace Sys2Proof.Machine

open Sys2Proof

/-- The buffers are in the canonical form and list no cell outside them (R44, R45, R71, R72). -/
abbrev BuffersOk (s : State) : Prop :=
  Memory.wf s.bb = true ∧ Memory.within s.cfg.bbSize.toNat s.bb = true ∧
  Memory.wf s.sb = true ∧ Memory.within s.cfg.sbSize.toNat s.sb = true

/-- The fault latch holds no fault and information 0, or one of the five faults the block raises with the
information that fault records (R222, R227-R232). The information of `ChecksumMismatch` is `CRC_VALUE`, which
nothing can change while the fault is latched; that of `IllegalCommand` is an illegal word. -/
abbrev LatchOk (s : State) : Prop :=
  (s.err = 0x00#8 ∧ s.errInfo = 0#32) ∨
  (s.err = 0x01#8 ∧ 1 ≤ s.errInfo.toNat ∧ s.errInfo.toNat ≤ 4) ∨
  (s.err = 0x02#8 ∧ s.errInfo = s.crcValue) ∨
  (s.err = 0x05#8 ∧ s.errInfo.toNat < 2 ^ 24) ∨
  (s.err = 0x80#8 ∧ wellFormedWord s.errInfo = false) ∨
  (s.err = 0x81#8 ∧ 1 ≤ s.errInfo.toNat ∧ s.errInfo.toNat ≤ 3)

/-- The largest metric value a completed classification can leave in `PAL_DIST` (R41, R156). -/
abbrev ResultsOk (s : State) : Prop := s.palDist.toNat ≤ 48387

/-- The invariant of the block. -/
abbrev State.Inv (s : State) : Prop := BuffersOk s ∧ LatchOk s ∧ ResultsOk s

/-- A clean session: no fault recorded (R226). -/
abbrev State.clean (s : State) : Prop := s.err = 0x00#8

end Sys2Proof.Machine
end

