-- ==== Sys2Proof/Certificates/Slice0/Obligations.lean ====
section
/-!
DEFINITION. The statements about the block, in the order of OBLIGATIONS.json. Each docstring names the rule of the
spec it formalises. A statement that answers `exec i s = .next { s with ... }` says the whole next state, so it is
its own frame: every register, both buffers and the host's side are as the equation says. A `script` and `replies`
are the host's side (log 3).
-/

namespace Sys2Proof.Claims

open Sys2Proof Sys2Proof.Machine

/-- Bit `k` of the stream of the `len` bytes from address `a`: bytes ascending, bit 7 first; 0 from `8 * len` on
(R130, R131, R132). -/
def bytesBit (m : List Host.Cell) (a len k : Nat) : Bool :=
  if k < 8 * len then (Memory.read m (a + k / 8)).getLsbD (7 - k % 8) else false

/-- Bit `k` of the stream of the symbols from address `a`: bit 2 first (R133, R134). -/
def symsBit (m : List (Nat × Sym)) (a k : Nat) : Bool :=
  (Memory.read m (a + k / 3)).getLsbD (2 - k % 3)

/-- The header field of four bytes from address `a`, most significant byte first (R67, R110). -/
def wordAt (m : List Host.Cell) (a : Nat) : Word :=
  Memory.read m a ++ (Memory.read m (a + 1) ++ (Memory.read m (a + 2) ++ Memory.read m (a + 3)))

/-- The palette's channels (table of R150). -/
def paletteTable : List (Byte × Byte × Byte) :=
  [(0#8, 0#8, 0#8), (255#8, 0#8, 0#8), (0#8, 255#8, 0#8), (0#8, 0#8, 255#8),
   (255#8, 255#8, 0#8), (255#8, 0#8, 255#8), (0#8, 255#8, 255#8), (255#8, 255#8, 255#8)]

/-- Row `i` of the palette (R150). -/
def paletteRow (i : Sym) : Byte × Byte × Byte := paletteTable.getD i.toNat (0#8, 0#8, 0#8)

/-- `|x - y|` over the integers (R10). -/
def gap (x y : Byte) : Nat := ((x.toNat : Int) - (y.toNat : Int)).natAbs

/-- The metric value `d(i)` (R152). -/
def dist (metric : BitVec 1) (r g b : Byte) (i : Sym) : Nat :=
  if metric = 0#1 then
    gap r (paletteRow i).1 + gap g (paletteRow i).2.1 + gap b (paletteRow i).2.2
  else
    gap r (paletteRow i).1 ^ 2 + gap g (paletteRow i).2.1 ^ 2 + gap b (paletteRow i).2.2 ^ 2

/-- The distance of a channel from the nearer of 0 and 255 (`e(v)` of R156). -/
def edge (v : Byte) : Nat := if v.toNat ≤ 127 then v.toNat else 255 - v.toNat

/-- The index with channel 255 exactly where the observed channel's top bit is set (table of R156). -/
def cornerSym (r g b : Byte) : Sym :=
  match r.getLsbD 7, g.getLsbD 7, b.getLsbD 7 with
  | false, false, false => 0#3
  | true, false, false => 1#3
  | false, true, false => 2#3
  | false, false, true => 3#3
  | true, true, false => 4#3
  | true, false, true => 5#3
  | false, true, true => 6#3
  | true, true, true => 7#3

/-- The offset and the access class of every register, in the order of the table of R48 (R24-R43). -/
def registerMap : List (Reg × Nat × RegClass) :=
  [(.cmd, 0x00, .WO), (.err, 0x04, .RO), (.errInfo, 0x08, .RO), (.baddr, 0x0C, .RW), (.blen, 0x10, .RW),
   (.saddr, 0x14, .RW), (.slen, 0x18, .RW), (.hdrCsize, 0x1C, .RW), (.hdrOsize, 0x20, .RW), (.hdrCrc, 0x24, .RW),
   (.hdrFlags, 0x28, .RW), (.hdrAvail, 0x2C, .RW), (.crcValue, 0x30, .RO), (.palCtrl, 0x34, .RW)] ++
  [(.palThresh, 0x38, .RW), (.palRgb, 0x3C, .RO), (.palSym, 0x40, .RO), (.palDist, 0x44, .RO),
   (.capBB, 0x48, .RO), (.capSB, 0x4C, .RO)]

/-- What the register at each offset reads, its *zero* range written out (R24-R43). -/
def mapReads (s : State) : List (Word × Word) :=
  [(0x00#32, 0#32), (0x04#32, 0#24 ++ s.err), (0x08#32, s.errInfo), (0x0C#32, s.baddr), (0x10#32, s.blen),
   (0x14#32, s.saddr), (0x18#32, s.slen), (0x1C#32, s.hdrCsize), (0x20#32, s.hdrOsize), (0x24#32, s.hdrCrc)] ++
  [(0x28#32, 0#31 ++ s.hdrFlags), (0x2C#32, s.hdrAvail), (0x30#32, s.crcValue), (0x34#32, 0#31 ++ s.palCtrl),
   (0x38#32, s.palThresh), (0x3C#32, 0#8 ++ s.palRgb), (0x40#32, 0#29 ++ s.palSym), (0x44#32, s.palDist),
   (0x48#32, s.cfg.bbSize), (0x4C#32, s.cfg.sbSize)]

/-- What a write of `w` at each offset but that of `CMD` leaves (R25-R43): an `RW` register holds the word outside its
*zero* range, an `RO` register its old value. -/
def mapWrites (s : State) (w : Word) : List (Word × State) :=
  [(0x04#32, s), (0x08#32, s), (0x0C#32, { s with baddr := w }), (0x10#32, { s with blen := w }),
   (0x14#32, { s with saddr := w }), (0x18#32, { s with slen := w }), (0x1C#32, { s with hdrCsize := w }),
   (0x20#32, { s with hdrOsize := w }), (0x24#32, { s with hdrCrc := w }),
   (0x28#32, { s with hdrFlags := w.extractLsb' 0 1 })] ++
  [(0x2C#32, { s with hdrAvail := w }), (0x30#32, s), (0x34#32, { s with palCtrl := w.extractLsb' 0 1 }),
   (0x38#32, { s with palThresh := w }), (0x3C#32, s), (0x40#32, s), (0x44#32, s), (0x48#32, s), (0x4C#32, s)]

/-- The state whose host's next action is `act`. -/
def next (s : State) (act : HostAction) (rest : List HostAction) : State := { s with script := act :: rest }

/-- The state after that action is taken from the script and answered `r`. -/
def answered (s : State) (rest : List HostAction) (r : Reply) : State :=
  { s with script := rest, replies := r :: s.replies }

end Sys2Proof.Claims

open Sys2Proof Sys2Proof.Machine Sys2Proof.Claims

/-! ### Encoding -/

/-- Decoding the word of any command, with every value of its operand, gives the command back (R91-R96). -/
def Obligations.DecodeInvertsEncode : Prop :=
  ∀ i : Instr, decode (encode i) = .ok i

/-- A word decodes to a command only if it is that command's word: no bit of a legal word is ignored (R91-R97). -/
def Obligations.EncodeInvertsDecode : Prop :=
  ∀ (w : Word) (i : Instr), decode w = .ok i → encode i = w

/-- R96: the nine rows of the opcode map; a word selects a row iff `(w AND mask) = match`; the rows are pairwise
disjoint; and the decoder gives a command exactly to the words that select its row. -/
def Obligations.OpcodeRowsSelectTheCommand : Prop :=
  tableRow .hdrEnc = (0x01000000#32, 0xFFFFFFFF#32) ∧ tableRow .hdrDec = (0x02000000#32, 0xFFFFFFFF#32) ∧
  tableRow .bpPack = (0x03000000#32, 0xFFFFFFFF#32) ∧ tableRow .bpUnpack = (0x04000000#32, 0xFFFFFFFF#32) ∧
  (∀ sym, tableRow (.palS2c sym) = (0x05000000#32, 0xFFFFFFF8#32)) ∧
  (∀ r g b, tableRow (.palC2s r g b) = (0x06000000#32, 0xFF000000#32)) ∧
  (∀ cont, tableRow (.crcCalc cont) = (0x07000000#32, 0xFFFFFFFE#32)) ∧
  tableRow .crcVerify = (0x08000000#32, 0xFFFFFFFF#32) ∧ tableRow .srst = (0x09000000#32, 0xFFFFFFFF#32) ∧
  (∀ (w : Word) (i : Instr), selectsRow w i = true ↔ w &&& (tableRow i).2 = (tableRow i).1) ∧
  (∀ (w : Word) (i j : Instr), selectsRow w i = true → selectsRow w j = true → tableRow i = tableRow j) ∧
  (∀ (w : Word) (i : Instr), decode w = .ok i → selectsRow w i = true) ∧
  (∀ (w : Word) (i : Instr), selectsRow w i = true → ∃ j, decode w = .ok j ∧ tableRow j = tableRow i)

/-- The legal words are exactly the well-formed ones: an assigned `op` and the format's must-be-zero bits clear
(R92-R97). -/
def Obligations.WellFormedWordsAreTheLegalWords : Prop :=
  ∀ w : Word, wellFormedWord w = true ↔ ∃ i, decode w = .ok i

/-- R97: the refusals of the decoder by name: an unassigned `op`, or an assigned one with a reserved argument bit
set. -/
def Obligations.IllegalWordsAreRefusedByName : Prop :=
  ∀ w : Word,
    (w.toNat < 0x01000000 ∨ 0x0A000000 ≤ w.toNat → decode w = .error (.unassignedOp (w.extractLsb' 24 8))) ∧
    (0x01000000 ≤ w.toNat ∧ w.toNat < 0x0A000000 ∧ wellFormedWord w = false →
      decode w = .error (.reservedArgBits (w.extractLsb' 24 8)))

/-- R92-R95: the operand fields of the four formats, as numbers: a format Z word with a nonzero argument is illegal;
every symbol, every colour and both values of `cont` are legal and are read as they are; any must-be-zero bit makes
a word illegal. -/
def Obligations.FormatOperandFields : Prop :=
  (∀ op ∈ [0x01, 0x02, 0x03, 0x04, 0x08, 0x09], ∀ arg : Nat, 0 < arg → arg < 2 ^ 24 →
    ∀ i, decode (BitVec.ofNat 32 (op * 2 ^ 24 + arg)) ≠ .ok i) ∧
  (∀ arg : Nat, arg < 8 →
    decode (BitVec.ofNat 32 (0x05 * 2 ^ 24 + arg)) = .ok (.palS2c (BitVec.ofNat 3 arg))) ∧
  (∀ arg : Nat, 8 ≤ arg → arg < 2 ^ 24 → ∀ i, decode (BitVec.ofNat 32 (0x05 * 2 ^ 24 + arg)) ≠ .ok i) ∧
  (∀ r g b : Byte, decode (BitVec.ofNat 32 (0x06 * 2 ^ 24 + r.toNat * 65536 + g.toNat * 256 + b.toNat)) =
    .ok (.palC2s r g b)) ∧
  (∀ arg : Nat, arg < 2 → decode (BitVec.ofNat 32 (0x07 * 2 ^ 24 + arg)) = .ok (.crcCalc (BitVec.ofNat 1 arg))) ∧
  (∀ arg : Nat, 2 ≤ arg → arg < 2 ^ 24 → ∀ i, decode (BitVec.ofNat 32 (0x07 * 2 ^ 24 + arg)) ≠ .ok i)

/-- Command words written out from the table of R96 and the formats of R91 decode to what they stand for. -/
def Obligations.SampleWordsDecode : Prop :=
  decode 0x01000000#32 = .ok .hdrEnc ∧ decode 0x02000000#32 = .ok .hdrDec ∧
  decode 0x03000000#32 = .ok .bpPack ∧ decode 0x04000000#32 = .ok .bpUnpack ∧
  decode 0x05000005#32 = .ok (.palS2c 5#3) ∧ decode 0x06FA0A05#32 = .ok (.palC2s 250#8 10#8 5#8) ∧
  decode 0x07000001#32 = .ok (.crcCalc 1#1) ∧ decode 0x08000000#32 = .ok .crcVerify ∧
  decode 0x09000000#32 = .ok .srst

/-! ### Header codec -/

/-- R111: `HDR.ENC` (word 0x01000000) writes the 13 header bytes at `BB[BADDR]`, big-endian, and nothing else; if
they leave `BB` it raises `OperandRange(1)` and writes nothing. The sum is exact. -/
def Obligations.HdrEncWritesTheHeader : Prop :=
  encode .hdrEnc = 0x01000000#32 ∧
  (∀ s : State, s.err = 0#8 → s.baddr.toNat + 13 ≤ s.cfg.bbSize.toNat →
    ∃ t, exec .hdrEnc s = .next t ∧ t = { s with bb := t.bb } ∧
      wordAt t.bb s.baddr.toNat = s.hdrCsize ∧
      wordAt t.bb (s.baddr.toNat + 4) = s.hdrOsize ∧
      wordAt t.bb (s.baddr.toNat + 8) = s.hdrCrc ∧
      Memory.read t.bb (s.baddr.toNat + 12) = (if s.hdrFlags = 1#1 then 0x01#8 else 0x00#8) ∧
      ∀ x, x < s.baddr.toNat ∨ s.baddr.toNat + 13 ≤ x → Memory.read t.bb x = Memory.read s.bb x) ∧
  (∀ s : State, s.err = 0#8 → s.cfg.bbSize.toNat < s.baddr.toNat + 13 →
    exec .hdrEnc s = .next { s with err := 0x81#8, errInfo := 1#32 })

/-- R112: `HDR.DEC` (word 0x02000000): when every check passes it loads the four header registers and changes nothing
else; otherwise it raises the first failing check, in the order `OperandRange(1)`, `HeaderCorrupt` 1, 2, 3, 4, and the
header registers keep their values. -/
def Obligations.HdrDecLoadsTheHeader : Prop :=
  encode .hdrDec = 0x02000000#32 ∧
  (∀ s : State, s.err = 0#8 → s.baddr.toNat + s.blen.toNat ≤ s.cfg.bbSize.toNat → 13 ≤ s.blen.toNat →
    (Memory.read s.bb (s.baddr.toNat + 12)).toNat ≤ 1 →
    (8 * (wordAt s.bb s.baddr.toNat).toNat + 2) / 3 ≤ s.hdrAvail.toNat →
    ((Memory.read s.bb (s.baddr.toNat + 12)).getLsbD 0 = true ∨
      wordAt s.bb s.baddr.toNat = wordAt s.bb (s.baddr.toNat + 4)) →
    exec .hdrDec s = .next { s with
      hdrCsize := wordAt s.bb s.baddr.toNat
      hdrOsize := wordAt s.bb (s.baddr.toNat + 4)
      hdrCrc := wordAt s.bb (s.baddr.toNat + 8)
      hdrFlags := if (Memory.read s.bb (s.baddr.toNat + 12)).getLsbD 0 then 1#1 else 0#1 }) ∧
  (∀ s : State, s.err = 0#8 → s.cfg.bbSize.toNat < s.baddr.toNat + s.blen.toNat →
    exec .hdrDec s = .next { s with err := 0x81#8, errInfo := 1#32 }) ∧
  (∀ s : State, s.err = 0#8 → s.baddr.toNat + s.blen.toNat ≤ s.cfg.bbSize.toNat → s.blen.toNat < 13 →
    exec .hdrDec s = .next { s with err := 0x01#8, errInfo := 1#32 }) ∧
  (∀ s : State, s.err = 0#8 → s.baddr.toNat + s.blen.toNat ≤ s.cfg.bbSize.toNat → 13 ≤ s.blen.toNat →
    2 ≤ (Memory.read s.bb (s.baddr.toNat + 12)).toNat →
    exec .hdrDec s = .next { s with err := 0x01#8, errInfo := 2#32 }) ∧
  (∀ s : State, s.err = 0#8 → s.baddr.toNat + s.blen.toNat ≤ s.cfg.bbSize.toNat → 13 ≤ s.blen.toNat →
    (Memory.read s.bb (s.baddr.toNat + 12)).toNat ≤ 1 →
    s.hdrAvail.toNat < (8 * (wordAt s.bb s.baddr.toNat).toNat + 2) / 3 →
    exec .hdrDec s = .next { s with err := 0x01#8, errInfo := 3#32 }) ∧
  (∀ s : State, s.err = 0#8 → s.baddr.toNat + s.blen.toNat ≤ s.cfg.bbSize.toNat → 13 ≤ s.blen.toNat →
    Memory.read s.bb (s.baddr.toNat + 12) = 0x00#8 →
    (8 * (wordAt s.bb s.baddr.toNat).toNat + 2) / 3 ≤ s.hdrAvail.toNat →
    wordAt s.bb s.baddr.toNat ≠ wordAt s.bb (s.baddr.toNat + 4) →
    exec .hdrDec s = .next { s with err := 0x01#8, errInfo := 4#32 })

/-- R114: after `HDR.ENC`, an `HDR.DEC` of the same 13 bytes gives the header registers back, or raises
`HeaderCorrupt(3)` or `(4)` when the encoded fields themselves fail those checks. -/
def Obligations.HeaderRoundTrip : Prop :=
  ∀ s t u : State, s.err = 0#8 → s.baddr.toNat + 13 ≤ s.cfg.bbSize.toNat → exec .hdrEnc s = .next t →
    u.err = 0#8 → u.baddr = s.baddr → 13 ≤ u.blen.toNat →
    u.baddr.toNat + u.blen.toNat ≤ u.cfg.bbSize.toNat →
    (∀ i, i < 13 → Memory.read u.bb (s.baddr.toNat + i) = Memory.read t.bb (s.baddr.toNat + i)) →
    exec .hdrDec u =
      if u.hdrAvail.toNat < (8 * s.hdrCsize.toNat + 2) / 3 then
        .next { u with err := 0x01#8, errInfo := 3#32 }
      else if s.hdrFlags = 0#1 ∧ s.hdrCsize ≠ s.hdrOsize then
        .next { u with err := 0x01#8, errInfo := 4#32 }
      else
        .next { u with hdrCsize := s.hdrCsize, hdrOsize := s.hdrOsize, hdrCrc := s.hdrCrc, hdrFlags := s.hdrFlags }

/-- R113: the bound of check 3 guarantees that the `BP.UNPACK` of the payload that follows an accepted header does
not run out of symbols. -/
def Obligations.AcceptedHeaderNeverStarvesUnpack : Prop :=
  ∀ s t u : State, s.err = 0#8 → exec .hdrDec s = .next t → t.err = 0#8 →
    u.err = 0#8 → u.blen = t.hdrCsize → s.hdrAvail.toNat ≤ u.slen.toNat →
    u.baddr.toNat + u.blen.toNat ≤ u.cfg.bbSize.toNat → u.saddr.toNat + u.slen.toNat ≤ u.cfg.sbSize.toNat →
    ∃ v, exec .bpUnpack u = .next v ∧ v.err = 0#8

/-! ### Bit packer -/

/-- R132: `BP.PACK` (word 0x03000000) writes the `nsym(BLEN)` symbols of the bit stream at `SB[SADDR]` and their
number to `SLEN`, and nothing else; a range that leaves its buffer raises `OperandRange`, the lowest sub-cause first,
and nothing is written. -/
def Obligations.PackWritesTheSymbols : Prop :=
  encode .bpPack = 0x03000000#32 ∧
  (∀ s : State, s.err = 0#8 → s.baddr.toNat + s.blen.toNat ≤ s.cfg.bbSize.toNat →
    s.saddr.toNat + (8 * s.blen.toNat + 2) / 3 ≤ s.cfg.sbSize.toNat →
    ∃ t, exec .bpPack s = .next t ∧ t = { s with sb := t.sb, slen := t.slen } ∧
      t.slen.toNat = (8 * s.blen.toNat + 2) / 3 ∧
      (∀ j, j < (8 * s.blen.toNat + 2) / 3 →
        (Memory.read t.sb (s.saddr.toNat + j)).toNat =
          4 * (bytesBit s.bb s.baddr.toNat s.blen.toNat (3 * j)).toNat +
          2 * (bytesBit s.bb s.baddr.toNat s.blen.toNat (3 * j + 1)).toNat +
          (bytesBit s.bb s.baddr.toNat s.blen.toNat (3 * j + 2)).toNat) ∧
      ∀ x, x < s.saddr.toNat ∨ s.saddr.toNat + (8 * s.blen.toNat + 2) / 3 ≤ x →
        Memory.read t.sb x = Memory.read s.sb x) ∧
  (∀ s : State, s.err = 0#8 → s.cfg.bbSize.toNat < s.baddr.toNat + s.blen.toNat →
    exec .bpPack s = .next { s with err := 0x81#8, errInfo := 1#32 }) ∧
  (∀ s : State, s.err = 0#8 → s.baddr.toNat + s.blen.toNat ≤ s.cfg.bbSize.toNat →
    s.cfg.sbSize.toNat < s.saddr.toNat + (8 * s.blen.toNat + 2) / 3 →
    exec .bpPack s = .next { s with err := 0x81#8, errInfo := 2#32 })

/-- R134: `BP.UNPACK` (word 0x04000000) writes exactly `BLEN` bytes at `BB[BADDR]` from the symbol bit stream, and
nothing else; a range that leaves its buffer, or too few symbols, raises `OperandRange`, the lowest sub-cause first,
and nothing is written. -/
def Obligations.UnpackWritesTheBytes : Prop :=
  encode .bpUnpack = 0x04000000#32 ∧
  (∀ s : State, s.err = 0#8 → s.baddr.toNat + s.blen.toNat ≤ s.cfg.bbSize.toNat →
    s.saddr.toNat + s.slen.toNat ≤ s.cfg.sbSize.toNat → (8 * s.blen.toNat + 2) / 3 ≤ s.slen.toNat →
    ∃ t, exec .bpUnpack s = .next t ∧ t = { s with bb := t.bb } ∧
      (∀ i, i < s.blen.toNat → (Memory.read t.bb (s.baddr.toNat + i)).toNat =
        ∑ k ∈ Finset.range 8, (symsBit s.sb s.saddr.toNat (8 * i + k)).toNat * 2 ^ (7 - k)) ∧
      ∀ x, x < s.baddr.toNat ∨ s.baddr.toNat + s.blen.toNat ≤ x → Memory.read t.bb x = Memory.read s.bb x) ∧
  (∀ s : State, s.err = 0#8 → s.cfg.bbSize.toNat < s.baddr.toNat + s.blen.toNat →
    exec .bpUnpack s = .next { s with err := 0x81#8, errInfo := 1#32 }) ∧
  (∀ s : State, s.err = 0#8 → s.baddr.toNat + s.blen.toNat ≤ s.cfg.bbSize.toNat →
    s.cfg.sbSize.toNat < s.saddr.toNat + s.slen.toNat →
    exec .bpUnpack s = .next { s with err := 0x81#8, errInfo := 2#32 }) ∧
  (∀ s : State, s.err = 0#8 → s.baddr.toNat + s.blen.toNat ≤ s.cfg.bbSize.toNat →
    s.saddr.toNat + s.slen.toNat ≤ s.cfg.sbSize.toNat → s.slen.toNat < (8 * s.blen.toNat + 2) / 3 →
    exec .bpUnpack s = .next { s with err := 0x81#8, errInfo := 3#32 })

/-- R131: the number of symbols, the pad bits and their place, and the equivalent arithmetic form: the symbols are
the base-8 digits of the bytes read as one number, shifted left by the pad bits. -/
def Obligations.PackCountPaddingAndArithmeticForm : Prop :=
  ∀ b : List Byte,
    (pack b).length = (8 * b.length + 3 - 1) / 3 ∧
    3 * (pack b).length = 8 * b.length +
      (if b.length % 3 = 0 then 0 else if b.length % 3 = 1 then 1 else 2) ∧
    (∀ k, 8 * b.length ≤ k → streamBit b k = false) ∧
    (∀ k, 8 * b.length ≤ k → k < 3 * (pack b).length → k / 3 = (pack b).length - 1) ∧
    ∀ j, j < (pack b).length → ((pack b).getD j 0#3).toNat =
      ((b.foldl (fun v x => v * 256 + x.toNat) 0) * 2 ^ (3 * (pack b).length - 8 * b.length)
        / 2 ^ (3 * ((pack b).length - 1 - j))) % 8

/-- R135: unpacking the packing of any byte sequence to its length returns it. -/
def Obligations.UnpackInvertsPack : Prop :=
  ∀ b : List Byte, unpack (pack b) b.length = b

/-- R135, in commands: after a `BP.PACK` completes, a `BP.UNPACK` of its symbols with the same `BLEN`, to any place,
writes the packed bytes. -/
def Obligations.PackThenUnpackRestoresTheBytes : Prop :=
  ∀ s t u : State, s.err = 0#8 → exec .bpPack s = .next t → t.err = 0#8 →
    u.err = 0#8 → u.saddr = s.saddr → u.blen = s.blen → t.slen.toNat ≤ u.slen.toNat →
    u.saddr.toNat + u.slen.toNat ≤ u.cfg.sbSize.toNat → u.baddr.toNat + u.blen.toNat ≤ u.cfg.bbSize.toNat →
    (∀ j, j < t.slen.toNat → Memory.read u.sb (s.saddr.toNat + j) = Memory.read t.sb (s.saddr.toNat + j)) →
    ∃ v, exec .bpUnpack u = .next v ∧ v.err = 0#8 ∧
      ∀ i, i < s.blen.toNat → Memory.read v.bb (u.baddr.toNat + i) = Memory.read s.bb (s.baddr.toNat + i)

/-- R136: packing what `L >= 1` bytes unpack to returns the symbols, the pad bits of the last forced to 0. -/
def Obligations.PackInvertsUnpackUpToPadBits : Prop :=
  ∀ (l : List Sym) (len : Nat), 1 ≤ len → l.length = (8 * len + 2) / 3 →
    (pack (unpack l len)).take (l.length - 1) = l.take (l.length - 1) ∧
    ((pack (unpack l len)).getD (l.length - 1) 0#3).toNat =
      (l.getD (l.length - 1) 0#3).toNat / 2 ^ (3 * l.length - 8 * len) * 2 ^ (3 * l.length - 8 * len)

/-- R136: a change confined to the pad bits, to surplus symbols or to cells outside the symbol range is invisible to
`BP.UNPACK`. -/
def Obligations.UnpackIgnoresPadAndSurplusSymbols : Prop :=
  ∀ (s : State) (m : List (Nat × Sym)) (t : State),
    (∀ k, k < 8 * s.blen.toNat → symsBit m s.saddr.toNat k = symsBit s.sb s.saddr.toNat k) →
    exec .bpUnpack s = .next t → exec .bpUnpack { s with sb := m } = .next { t with sb := m }

/-- R137: a packing continues another exactly on a boundary of three bytes. -/
def Obligations.PackConcatenatesOnThreeByteBoundaries : Prop :=
  ∀ a b : List Byte, a.length % 3 = 0 → pack (a ++ b) = pack a ++ pack b

/-- UDCODE's Scenario B (95 S2): the one bit-level example of the source. -/
def Obligations.ScenarioBPacks : Prop :=
  pack [0x00#8, 0xFF#8, 0x80#8] = [0#3, 0#3, 1#3, 7#3, 7#3, 6#3, 0#3, 0#3]

/-- R201, R205: a header and a payload packed separately, followed by any padding symbols, are read back by
unpacking 13 bytes from symbol 0 and the payload from symbol 35. -/
def Obligations.HeaderAndPayloadPackedSeparately : Prop :=
  ∀ (h : Header) (p : List Byte) (z : List Sym),
    (pack (headerBytes h)).length = 35 ∧
    parseHeader (unpack (pack (headerBytes h) ++ pack p ++ z) 13) = h ∧
    unpack ((pack (headerBytes h) ++ pack p ++ z).drop 35) p.length = p

/-! ### Palette mapper -/

/-- R150, R151: `PAL.S2C sym` (word 0x05000000 + sym) loads the palette entry into `PAL_RGB`, R most significant, and
changes nothing else; it has no fault of its own. -/
def Obligations.S2cLoadsThePaletteEntry : Prop :=
  (∀ sym : Sym, encode (.palS2c sym) = 0x05000000#32 + sym.setWidth 32) ∧
  ∀ (s : State) (sym : Sym), s.err = 0#8 →
    exec (.palS2c sym) s = .next { s with
      palRgb := (paletteRow sym).1 ++ ((paletteRow sym).2.1 ++ (paletteRow sym).2.2) }

/-- R155, R153: `PAL.C2S rgb` (word 0x06000000 + rgb): a colour with a palette entry within the threshold is
classified to the least index of minimal metric value and `PAL_DIST` gets that value, nothing else changing; a colour
farther than the threshold from every entry raises `UnreadableCell` with the colour in bits 23:0. -/
def Obligations.C2sClassifiesToTheNearest : Prop :=
  (∀ r g b : Byte, (encode (.palC2s r g b)).toNat = 0x06000000 + r.toNat * 65536 + g.toNat * 256 + b.toNat) ∧
  (∀ (s : State) (r g b : Byte), s.err = 0#8 →
    (∃ i, dist s.palCtrl r g b i ≤ s.palThresh.toNat) →
    ∃ k m, exec (.palC2s r g b) s = .next { s with palSym := k, palDist := m } ∧
      m.toNat = dist s.palCtrl r g b k ∧
      (∀ i, dist s.palCtrl r g b k ≤ dist s.palCtrl r g b i) ∧
      ∀ i, i.toNat < k.toNat → dist s.palCtrl r g b k < dist s.palCtrl r g b i) ∧
  (∀ (s : State) (r g b : Byte), s.err = 0#8 →
    (∀ i, s.palThresh.toNat < dist s.palCtrl r g b i) →
    exec (.palC2s r g b) s = .next { s with
      err := 0x05#8, errInfo := BitVec.ofNat 32 (r.toNat * 65536 + g.toNat * 256 + b.toNat) })

/-- R154: the threshold test is strict: a colour is accepted iff its least metric value is at most `PAL_THRESH`;
threshold 0 accepts exactly the palette's colours; 381 (Manhattan) or 48387 (squared Euclidean) accepts every
colour; and a change of the metric does not rescale the threshold. -/
def Obligations.ThresholdTestIsStrict : Prop :=
  (∀ (s t : State) (r g b : Byte), s.err = 0#8 → exec (.palC2s r g b) s = .next t →
    (t.err = 0#8 ↔ ∃ i, dist s.palCtrl r g b i ≤ s.palThresh.toNat) ∧
    (s.palThresh = 0#32 → (t.err = 0#8 ↔ ∃ i, paletteRow i = (r, g, b))) ∧
    ((if s.palCtrl = 0#1 then 381 else 48387) ≤ s.palThresh.toNat → t.err = 0#8)) ∧
  ∀ (s : State) (w : Word), (s.writeReg .palCtrl w).palThresh = s.palThresh

/-- R156: the nearest entry in closed form, for both metrics, and the uniqueness of the minimum. -/
def Obligations.NearestEntryIsTheCorner : Prop :=
  ∀ (metric : BitVec 1) (r g b : Byte),
    nearestSym metric r g b = cornerSym r g b ∧
    nearestDist metric r g b =
      (if metric = 0#1 then edge r + edge g + edge b else edge r ^ 2 + edge g ^ 2 + edge b ^ 2) ∧
    (∀ i, i ≠ cornerSym r g b → nearestDist metric r g b < dist metric r g b i) ∧
    nearestDist metric r g b ≤ (if metric = 0#1 then 381 else 48387)

/-- R157: `PAL.S2C s`, then `PAL.C2S` of the colour it gave, returns `s` at distance 0, for every threshold and
either metric. -/
def Obligations.PaletteRoundTrip : Prop :=
  ∀ (s t : State) (sym : Sym), s.err = 0#8 → exec (.palS2c sym) s = .next t →
    exec (.palC2s (t.palRgb.extractLsb' 16 8) (t.palRgb.extractLsb' 8 8) (t.palRgb.extractLsb' 0 8)) t =
      .next { t with palSym := sym, palDist := 0#32 }

/-- R158: the mapper never guesses: a completed classification is within the threshold. -/
def Obligations.ClassifiedWithinTheThreshold : Prop :=
  ∀ (s t : State) (r g b : Byte), s.err = 0#8 → exec (.palC2s r g b) s = .next t → t.err = 0#8 →
    t.palDist.toNat ≤ t.palThresh.toNat

/-! ### CRC-32 unit -/

/-- R172: `CRC.CALC` and `CRC.CALC cont` (words 0x07000000, 0x07000001) leave the CRC of the byte range in
`CRC_VALUE`, afresh or continued, and change nothing else; a range that leaves `BB` raises `OperandRange(1)` and
`CRC_VALUE` is kept. -/
def Obligations.CrcCalcComputes : Prop :=
  encode (.crcCalc 0#1) = 0x07000000#32 ∧ encode (.crcCalc 1#1) = 0x07000001#32 ∧
  (∀ (s : State) (cont : BitVec 1), s.err = 0#8 → s.baddr.toNat + s.blen.toNat ≤ s.cfg.bbSize.toNat →
    exec (.crcCalc cont) s = .next { s with
      crcValue := crc32Update (if cont = 1#1 then s.crcValue else 0#32)
        ((List.range s.blen.toNat).map fun i => Memory.read s.bb (s.baddr.toNat + i)) }) ∧
  (∀ (s : State) (cont : BitVec 1), s.err = 0#8 → s.cfg.bbSize.toNat < s.baddr.toNat + s.blen.toNat →
    exec (.crcCalc cont) s = .next { s with err := 0x81#8, errInfo := 1#32 })

/-- R171: the update function, one byte at a time and one bit at a time, and the check value of R170. The spec marks
this variant as general knowledge (93 G1, G2; log 10). -/
def Obligations.CrcUpdateFunction : Prop :=
  (∀ p : Word, crc32Update p [] = p) ∧
  (∀ (p : Word) (x : Byte) (b : List Byte), crc32Update p (x :: b) = crc32Update (crc32Update p [x]) b) ∧
  (∀ (p : Word) (x : Byte), crc32Update p [x] =
    Nat.iterate (fun c : Word => if c.getLsbD 0 then (c >>> 1) ^^^ 0xEDB88320#32 else c >>> 1) 8
      ((p ^^^ 0xFFFFFFFF#32) ^^^ x.setWidth 32) ^^^ 0xFFFFFFFF#32) ∧
  crc32 [0x31#8, 0x32#8, 0x33#8, 0x34#8, 0x35#8, 0x36#8, 0x37#8, 0x38#8, 0x39#8] = 0xCBF43926#32

/-- R173: a `CRC.CALC` over one range, then a `CRC.CALC cont` over another, leaves the CRC of the two ranges in a
row. -/
def Obligations.CrcChainsOverPieces : Prop :=
  ∀ s t u : State, s.err = 0#8 → exec (.crcCalc 0#1) s = .next t → t.err = 0#8 →
    u.err = 0#8 → u.crcValue = t.crcValue → u.baddr.toNat + u.blen.toNat ≤ u.cfg.bbSize.toNat →
    exec (.crcCalc 1#1) u = .next { u with
      crcValue := crc32 (Memory.readRange s.bb s.baddr.toNat s.blen.toNat ++
        Memory.readRange u.bb u.baddr.toNat u.blen.toNat) }

/-- R175: the CRC detects every change confined to four bytes in a row (a burst of at most 32 bits). The spec marks
this sentence as general knowledge. -/
def Obligations.CrcDetectsFourByteBursts : Prop :=
  ∀ a x y c : List Byte, x.length = y.length → x.length ≤ 4 → x ≠ y →
    crc32 (a ++ x ++ c) ≠ crc32 (a ++ y ++ c)

/-- R174: `CRC.VERIFY` (word 0x08000000): with equal CRCs it completes and changes nothing; otherwise it raises
`ChecksumMismatch` with the computed CRC. -/
def Obligations.CrcVerifyCompares : Prop :=
  encode .crcVerify = 0x08000000#32 ∧
  (∀ s : State, s.err = 0#8 → s.crcValue = s.hdrCrc → exec .crcVerify s = .next s) ∧
  (∀ s : State, s.err = 0#8 → s.crcValue ≠ s.hdrCrc →
    exec .crcVerify s = .next { s with err := 0x02#8, errInfo := s.crcValue })

/-! ### Session reset, hard reset -/

/-- R190: in every state, faulted or not, `SRST` (word 0x09000000) returns the fifteen session registers to 0 and
changes nothing else; a word with `op = 0x09` and a nonzero argument is no `SRST` but illegal: it raises
`IllegalCommand` when not faulted and is refused when faulted. -/
def Obligations.SrstClearsTheSession : Prop :=
  encode .srst = 0x09000000#32 ∧
  (∀ s : State, exec .srst s = .next { s with
    err := 0#8, errInfo := 0#32, baddr := 0#32, blen := 0#32, saddr := 0#32, slen := 0#32,
    hdrCsize := 0#32, hdrOsize := 0#32, hdrCrc := 0#32, hdrFlags := 0#1, hdrAvail := 0#32,
    crcValue := 0#32, palRgb := 0#24, palSym := 0#3, palDist := 0#32 }) ∧
  (∀ (s : State) (arg : Nat), 0 < arg → arg < 2 ^ 24 →
    issueWord (BitVec.ofNat 32 (0x09000000 + arg)) s =
      if s.err = 0#8 then .next { s with err := 0x80#8, errInfo := BitVec.ofNat 32 (0x09000000 + arg) }
      else .next s)

/-- R48, R250: hard reset, done by the host between two accesses, leaves every register at 0, the `fault` line low
and the sizes and buffers as they were. -/
def Obligations.HardResetValues : Prop :=
  ∀ (s : State) (rest : List HostAction),
    ∃ t, step (next s .hardReset rest) = .next t ∧
      (∀ r : Reg, r ≠ .capBB → r ≠ .capSB → t.readReg r = 0#32) ∧ t.faultLine = false ∧
      t.readReg .capBB = s.cfg.bbSize ∧ t.readReg .capSB = s.cfg.sbSize ∧ t.bb = s.bb ∧ t.sb = s.sb ∧
      t.script = rest ∧ t.replies = s.replies

/-! ### The fault latch -/

/-- R223, R65: a word written to `CMD` while faulted, legal or illegal, is refused unless it is `SRST`: nothing
changes and the response is OK. Every other access does in the faulted state what it does in the clean one; a read
of `ERR` or `ERR_INFO` aside, it is answered the same. -/
def Obligations.RefusedWhileFaulted : Prop :=
  (∀ (s : State) (w : Word) (rest : List HostAction), s.err ≠ 0#8 →
    step (next s (.access (.regWrite 0#32 w)) rest) =
      if w = 0x09000000#32 then .next (answered s.sessionReset rest .ok) else .next (answered s rest .ok)) ∧
  (∀ (s t : State) (a : HostAccess) (rest : List HostAction), s.err ≠ 0#8 →
    (∀ w, a ≠ .regWrite 0#32 w) → a ≠ .regRead 0x04#32 → a ≠ .regRead 0x08#32 →
    step (next { s with err := 0#8, errInfo := 0#32 } (.access a) rest) = .next t →
    step (next s (.access a) rest) = .next { t with err := s.err, errInfo := s.errInfo })

/-- R97, R231: an illegal word written to `CMD` while not faulted raises `IllegalCommand` with the word; the access
is answered OK. -/
def Obligations.IllegalWordRaisesIllegalCommand : Prop :=
  ∀ (s : State) (w : Word) (rest : List HostAction), s.err = 0#8 → (∀ i, selectsRow w i = false) →
    step (next s (.access (.regWrite 0#32 w)) rest) =
      .next (answered { s with err := 0x80#8, errInfo := w } rest .ok)

/-- R224: a fault preserves everything but `ERR` and `ERR_INFO`, whatever command raised it. -/
def Obligations.FaultsArePrecise : Prop :=
  ∀ (i : Instr) (s t : State), s.err = 0#8 → exec i s = .next t → t.err ≠ 0#8 →
    t = { s with err := t.err, errInfo := t.errInfo }

/-- R235: which command can raise what, with the information word of R228-R230 and R232: a sub-cause, the observed
colour with bits 31:24 zero, or the computed CRC. -/
def Obligations.CommandsRaiseOnlyTheirFaults : Prop :=
  ∀ (i : Instr) (s t : State), s.err = 0#8 → exec i s = .next t → t.err ≠ 0#8 →
    match i with
    | .hdrEnc => t.err = 0x81#8 ∧ t.errInfo = 1#32
    | .hdrDec => (t.err = 0x81#8 ∧ t.errInfo = 1#32) ∨
        (t.err = 0x01#8 ∧ t.errInfo ∈ [1#32, 2#32, 3#32, 4#32])
    | .bpPack => t.err = 0x81#8 ∧ t.errInfo ∈ [1#32, 2#32]
    | .bpUnpack => t.err = 0x81#8 ∧ t.errInfo ∈ [1#32, 2#32, 3#32]
    | .palS2c _ => False
    | .palC2s r g b => t.err = 0x05#8 ∧ t.errInfo = 0#8 ++ (r ++ (g ++ b))
    | .crcCalc _ => t.err = 0x81#8 ∧ t.errInfo = 1#32
    | .crcVerify => t.err = 0x02#8 ∧ t.errInfo = s.crcValue
    | .srst => False

/-- R222: the first fault of a session stays in `ERR` and `ERR_INFO`, whatever the host does, until `SRST` or hard
reset. -/
def Obligations.LatchHoldsUntilReset : Prop :=
  ∀ (s t : State) (act : HostAction) (rest : List HostAction), s.err ≠ 0#8 → act ≠ .hardReset →
    act ≠ .access (.regWrite 0#32 0x09000000#32) → step (next s act rest) = .next t →
    t.err = s.err ∧ t.errInfo = s.errInfo

/-- R47, R233: the `fault` line is 1 exactly when `ERR.CODE` is not 0. It is 1 after every raise; it rises only at a
write to `CMD`, and it falls at `SRST` and at hard reset and at nothing else. -/
def Obligations.FaultLineFollowsTheLatch : Prop :=
  (∀ s : State, s.faultLine = true ↔ s.err ≠ 0#8) ∧
  (∀ (s : State) (f : FaultRecord), (s.raise f).faultLine = true) ∧
  (∀ (s : State) (rest : List HostAction), ∃ t u,
    step (next s (.access (.regWrite 0#32 0x09000000#32)) rest) = .next t ∧ t.faultLine = false ∧
    step (next s .hardReset rest) = .next u ∧ u.faultLine = false) ∧
  (∀ (s t : State) (act : HostAction) (rest : List HostAction), step (next s act rest) = .next t →
    (s.faultLine = false → t.faultLine = true → ∃ w, act = .access (.regWrite 0#32 w)) ∧
    (s.faultLine = true → t.faultLine = false →
      act = .hardReset ∨ act = .access (.regWrite 0#32 0x09000000#32)))

/-! ### The frame over all commands -/

/-- R27-R29, R35, R37, R38, R42-R45: no command but `SRST` writes `BADDR`, `BLEN`, `SADDR` or `HDR_AVAIL`; none
writes the configuration, the sizes or the host's side; `BB` is written by `HDR.ENC` and `BP.UNPACK` alone, `SB` by
`BP.PACK` alone. -/
def Obligations.CommandFrames : Prop :=
  ∀ (i : Instr) (s t : State), exec i s = .next t →
    (i ≠ .srst → t.baddr = s.baddr ∧ t.blen = s.blen ∧ t.saddr = s.saddr ∧ t.hdrAvail = s.hdrAvail) ∧
    (t.palCtrl = s.palCtrl ∧ t.palThresh = s.palThresh ∧ t.cfg = s.cfg ∧ t.script = s.script ∧
      t.replies = s.replies) ∧
    (i ≠ .hdrEnc → i ≠ .bpUnpack → ∀ x, Memory.read t.bb x = Memory.read s.bb x) ∧
    (i ≠ .bpPack → ∀ x, Memory.read t.sb x = Memory.read s.sb x)

/-- R72: no command writes a cell outside its buffer, whatever its operands. -/
def Obligations.CommandsStayInsideTheBuffers : Prop :=
  ∀ (i : Instr) (s t : State), exec i s = .next t →
    (∀ x, s.cfg.bbSize.toNat ≤ x → Memory.read t.bb x = Memory.read s.bb x) ∧
    (∀ x, s.cfg.sbSize.toNat ≤ x → Memory.read t.sb x = Memory.read s.sb x)

/-! ### Host accesses and the step -/

/-- R90, R24: when the host's next access writes a command's word to `CMD`, the step is `exec` of that command, with
the access taken from the script and answered OK. While `ERR.CODE = 0` that is the command's execution (R90). In the
faulted state it is so because `exec` holds R223's refusal, which is the model's placing of it (log 11). -/
def Obligations.StepRunsTheDecodedCommand : Prop :=
  ∀ (s : State) (w : Word) (i : Instr) (rest : List HostAction), decode w = .ok i →
    step (next s (.access (.regWrite 0#32 w)) rest) = withReply .ok (exec i { s with script := rest })

/-- With no access to come the block is idle and holds its state (R237; the model's choice, log 4). -/
def Obligations.IdleBlockHoldsItsState : Prop :=
  ∀ s : State, s.script = [] → step s = .next s

/-- R238: never stuck, never hung: every step answers a next state, from every state. -/
def Obligations.EveryStepAnswers : Prop :=
  ∀ s : State, ∃ t, step s = .next t

/-- R61: a register access is valid iff its offset is a multiple of 4 up to 0x4C. An invalid one is answered ERROR
and changes nothing. A valid one acts on the register that the map of R48 puts at the offset: a read is answered OK
with its value and changes nothing; a write is answered OK and stores by the register's rule, or, at `CMD`, issues
the word. -/
def Obligations.RegisterAccessValidity : Prop :=
  ∀ (s : State) (off w : Word) (rest : List HostAction),
    (¬(off.toNat % 4 = 0 ∧ off.toNat ≤ 0x4C) →
      step (next s (.access (.regRead off)) rest) = .next (answered s rest .error) ∧
      step (next s (.access (.regWrite off w)) rest) = .next (answered s rest .error)) ∧
    (off.toNat % 4 = 0 ∧ off.toNat ≤ 0x4C → ∃ r : Reg, r.offset = off.toNat ∧
      step (next s (.access (.regRead off)) rest) = .next (answered s rest (.okWord (s.readReg r))) ∧
      (r ≠ .cmd → step (next s (.access (.regWrite off w)) rest) = .next (answered (s.writeReg r w) rest .ok)) ∧
      (r = .cmd → step (next s (.access (.regWrite off w)) rest) =
        withReply .ok (issueWord w { s with script := rest })))

/-- R24-R43, R48: the register map. Every register has its row, with the offset and access class of the table; a
read at each offset is answered with the field the rules put there; a write at each offset but that of `CMD` sets
that field alone, or, where the register is `RO`, nothing. -/
def Obligations.RegisterMapIsTheTable : Prop :=
  (∀ r : Reg, (r, r.offset, r.accessClass) ∈ registerMap) ∧
  (∀ (s : State) (rest : List HostAction), ∀ p ∈ mapReads s,
    step (next s (.access (.regRead p.1)) rest) = .next (answered s rest (.okWord p.2))) ∧
  ∀ (s : State) (w : Word) (rest : List HostAction), ∀ p ∈ mapWrites s w,
    step (next s (.access (.regWrite p.1 w)) rest) = .next (answered p.2 rest .ok)

/-- R23: the access classes. A read changes nothing. A write to an `RW` register stores the word outside the *zero*
ranges, in any state, and changes no other register (so it raises no fault) and no buffer; a write to an `RO` register
does nothing; both are answered OK. The `WO` register reads 0, and so do the *zero* ranges. -/
def Obligations.RegisterAccessClasses : Prop :=
  (∀ (s : State) (r : Reg) (w : Word) (rest : List HostAction),
    step (next s (.access (.regRead (BitVec.ofNat 32 r.offset))) rest) =
      .next (answered s rest (.okWord (s.readReg r))) ∧
    (r.accessClass ≠ .WO → step (next s (.access (.regWrite (BitVec.ofNat 32 r.offset) w)) rest) =
      .next (answered (s.writeReg r w) rest .ok)) ∧
    (r.accessClass = .RW →
      (s.writeReg r w).readReg r = (if r = .hdrFlags ∨ r = .palCtrl then w &&& 1#32 else w) ∧
      (∀ r', r' ≠ r → (s.writeReg r w).readReg r' = s.readReg r') ∧
      (s.writeReg r w).bb = s.bb ∧ (s.writeReg r w).sb = s.sb) ∧
    (r.accessClass = .RO → s.writeReg r w = s) ∧
    (r.accessClass = .WO → s.readReg r = 0#32)) ∧
  ∀ s : State, (s.readReg .err).toNat < 2 ^ 8 ∧ (s.readReg .hdrFlags).toNat < 2 ∧
    (s.readReg .palCtrl).toNat < 2 ∧ (s.readReg .palRgb).toNat < 2 ^ 24 ∧ (s.readReg .palSym).toNat < 8

/-- R62: a byte-buffer access is valid iff its address is below `BB_SIZE`; a valid write sets that byte and no
other, a valid read returns it, an invalid access is answered ERROR and changes nothing. -/
def Obligations.ByteBufferAccess : Prop :=
  ∀ (s : State) (a : Word) (v : Byte) (rest : List HostAction),
    (a.toNat < s.cfg.bbSize.toNat →
      step (next s (.access (.bbRead a)) rest) = .next (answered s rest (.okByte (Memory.read s.bb a.toNat))) ∧
      ∃ m, step (next s (.access (.bbWrite a v)) rest) = .next (answered { s with bb := m } rest .ok) ∧
        Memory.read m a.toNat = v ∧ ∀ x, x ≠ a.toNat → Memory.read m x = Memory.read s.bb x) ∧
    (s.cfg.bbSize.toNat ≤ a.toNat →
      step (next s (.access (.bbRead a)) rest) = .next (answered s rest .error) ∧
      step (next s (.access (.bbWrite a v)) rest) = .next (answered s rest .error))

/-- R63: the same for the symbol buffer. -/
def Obligations.SymbolBufferAccess : Prop :=
  ∀ (s : State) (a : Word) (v : Sym) (rest : List HostAction),
    (a.toNat < s.cfg.sbSize.toNat →
      step (next s (.access (.sbRead a)) rest) = .next (answered s rest (.okSym (Memory.read s.sb a.toNat))) ∧
      ∃ m, step (next s (.access (.sbWrite a v)) rest) = .next (answered { s with sb := m } rest .ok) ∧
        Memory.read m a.toNat = v ∧ ∀ x, x ≠ a.toNat → Memory.read m x = Memory.read s.sb x) ∧
    (s.cfg.sbSize.toNat ≤ a.toNat →
      step (next s (.access (.sbRead a)) rest) = .next (answered s rest .error) ∧
      step (next s (.access (.sbWrite a v)) rest) = .next (answered s rest .error))

/-! ### Invariants -/

/-- R42, R43: `CAP_BB` and `CAP_SB` read the sizes, and no step changes what they read (the sizes are held in State as
log 1 says). -/
def Obligations.SizesNeverChange : Prop :=
  ∀ s t : State, step s = .next t →
    t.cfg = s.cfg ∧ t.readReg .capBB = s.cfg.bbSize ∧ t.readReg .capSB = s.cfg.sbSize

/-- Every step keeps the invariant of Safety.lean: the buffers in their canonical form and inside their sizes, the
latch in one of the states R222 and R227-R232 allow, `PAL_DIST` within the bound of R156. -/
def Obligations.EveryStepKeepsTheInvariant : Prop :=
  ∀ s t : State, s.Inv → step s = .next t → t.Inv

/-- The invariant holds at reset (R48, R250; sizes and buffer contents as logs 1 and 2 choose them), and after the
hard reset of any state whose buffers meet it. -/
def Obligations.ResetMeetsTheInvariant : Prop :=
  State.reset.Inv ∧ ∀ s : State, BuffersOk s → s.hardReset.Inv
end

