-- ==== Sys2Proof/Laws/Bits.lean ====
section
/-!
SUPPORT. Words put together from fields and taken apart again: as numbers, and as inverse operations.
-/

namespace Sys2Proof.Machine

open Sys2Proof

/-! ### Zero ranges -/

/-- A *zero* range above a field is the field widened. -/
theorem zero_append_eq_setWidth {w : Nat} (n : Nat) (x : BitVec w) : 0#n ++ x = x.setWidth (n + w) :=
  BitVec.eq_of_toNat_eq (by
    rw [BitVec.toNat_append, BitVec.toNat_setWidth,
      Nat.mod_eq_of_lt (Nat.lt_of_lt_of_le x.isLt (Nat.pow_le_pow_right (by decide) (by omega)))]
    simp)

/-- The low bits of a word. -/
theorem setWidth_eq_extractLsb'_zero {w : Nat} (n : Nat) (x : BitVec w) : x.setWidth n = x.extractLsb' 0 n :=
  BitVec.eq_of_toNat_eq (by simp)

/-! ### As numbers -/

/-- An `op` byte over a 24-bit argument. -/
theorem toNat_op_append (op : Byte) (arg : BitVec 24) : (op ++ arg : Word).toNat = op.toNat * 2 ^ 24 + arg.toNat := by
  have h := BitVec.toNat_append op arg
  rw [← Nat.shiftLeft_add_eq_or_of_lt arg.isLt, Nat.shiftLeft_eq] at h
  exact h

/-- A byte over a 16-bit value. -/
theorem toNat_byte_append (x : Byte) (y : BitVec 16) : (x ++ y : BitVec 24).toNat = x.toNat * 2 ^ 16 + y.toNat := by
  have h := BitVec.toNat_append x y
  rw [← Nat.shiftLeft_add_eq_or_of_lt y.isLt, Nat.shiftLeft_eq] at h
  exact h

/-- A byte over a byte. -/
theorem toNat_byte_append_byte (x y : Byte) : (x ++ y : BitVec 16).toNat = x.toNat * 2 ^ 8 + y.toNat := by
  have h := BitVec.toNat_append x y
  rw [← Nat.shiftLeft_add_eq_or_of_lt y.isLt, Nat.shiftLeft_eq] at h
  exact h

/-- A colour from its channels. -/
theorem toNat_rgb (r g b : Byte) : (r ++ (g ++ b) : Rgb).toNat = r.toNat * 65536 + g.toNat * 256 + b.toNat := by
  rw [toNat_byte_append r (g ++ b), toNat_byte_append_byte g b]; omega

/-- A header field from its bytes. -/
theorem toNat_be32 (b0 b1 b2 b3 : Byte) :
    (be32 b0 b1 b2 b3).toNat = b0.toNat * 2 ^ 24 + b1.toNat * 2 ^ 16 + b2.toNat * 2 ^ 8 + b3.toNat := by
  unfold be32
  rw [toNat_op_append b0 (b1 ++ (b2 ++ b3)), toNat_byte_append b1 (b2 ++ b3), toNat_byte_append_byte b2 b3]; omega

/-- A field of `n` bits from bit `lo` on. -/
theorem toNat_field {w : Nat} (x : BitVec w) (lo n : Nat) : (x.extractLsb' lo n).toNat = x.toNat / 2 ^ lo % 2 ^ n := by
  rw [BitVec.extractLsb'_toNat, Nat.shiftRight_eq_div_pow]

/-! ### As inverse operations -/

@[simp] theorem opField_append (op : Byte) (arg : BitVec 24) : opField (op ++ arg) = op :=
  BitVec.extractLsb'_append_eq_left

@[simp] theorem argField_append (op : Byte) (arg : BitVec 24) : argField (op ++ arg) = arg :=
  BitVec.extractLsb'_append_eq_right

/-- Every word is its `op` over its `arg` (R91). -/
theorem opField_append_argField (w : Word) : opField w ++ argField w = w := by
  apply BitVec.eq_of_toNat_eq
  have hw := w.isLt
  rw [toNat_op_append, opField, argField, toNat_field, toNat_field]; omega

@[simp] theorem rgb_red (r g b : Byte) : (r ++ (g ++ b) : Rgb).extractLsb' 16 8 = r := by
  apply BitVec.eq_of_toNat_eq
  have := r.isLt; have := g.isLt; have := b.isLt
  rw [toNat_field, toNat_rgb]; omega

@[simp] theorem rgb_green (r g b : Byte) : (r ++ (g ++ b) : Rgb).extractLsb' 8 8 = g := by
  apply BitVec.eq_of_toNat_eq
  have := r.isLt; have := g.isLt; have := b.isLt
  rw [toNat_field, toNat_rgb]; omega

@[simp] theorem rgb_blue (r g b : Byte) : (r ++ (g ++ b) : Rgb).extractLsb' 0 8 = b := by
  apply BitVec.eq_of_toNat_eq
  have := r.isLt; have := g.isLt; have := b.isLt
  rw [toNat_field, toNat_rgb]; omega

/-- `be32` and `be32_bytes` are inverse (R11). -/
theorem be32_be32Bytes (v : Word) :
    be32 (v.extractLsb' 24 8) (v.extractLsb' 16 8) (v.extractLsb' 8 8) (v.extractLsb' 0 8) = v := by
  apply BitVec.eq_of_toNat_eq
  have hv := v.isLt
  rw [toNat_be32, toNat_field, toNat_field, toNat_field, toNat_field]; omega

end Sys2Proof.Machine
end

