-- ==== Sys2Proof/Laws/Memory.lean ====
section
/-!
SUPPORT. The laws of the buffers: a read after a write, the canonical form, ranges. They hold of every list, in the
canonical form or not, but for `Memory.ext` and the lemmas about the form itself.
-/

namespace Sys2Proof.Machine

open Sys2Proof

variable {w : Nat}

@[simp] theorem Memory.read_nil (a : Nat) : Memory.read ([] : List (Nat × BitVec w)) a = Memory.unlisted w := rfl

theorem Memory.read_cons (k : Nat) (x : BitVec w) (m : List (Nat × BitVec w)) (a : Nat) :
    Memory.read ((k, x) :: m) a = if k < a then Memory.read m a else if k = a then x else Memory.unlisted w := rfl

/-- Cells dropped up to address `a` matter to no read above `a`. -/
theorem Memory.read_dropWhile_of_lt (m : List (Nat × BitVec w)) {a b : Nat} (h : a < b) :
    Memory.read (m.dropWhile fun c => decide (c.1 ≤ a)) b = Memory.read m b := by
  induction m with
  | nil => rfl
  | cons c m ih =>
    by_cases hc : c.1 ≤ a
    · rw [List.dropWhile_cons_of_pos (by simpa using hc), ih, Memory.read_cons, if_pos (by omega)]
    · rw [List.dropWhile_cons_of_neg (by simpa using hc)]

/-- Once the cells up to `a` are dropped, nothing is listed at or below `a`. -/
theorem Memory.read_dropWhile_of_le (m : List (Nat × BitVec w)) {a b : Nat} (h : b ≤ a) :
    Memory.read (m.dropWhile fun c => decide (c.1 ≤ a)) b = Memory.unlisted w := by
  induction m with
  | nil => rfl
  | cons c m ih =>
    by_cases hc : c.1 ≤ a
    · rw [List.dropWhile_cons_of_pos (by simpa using hc), ih]
    · rw [List.dropWhile_cons_of_neg (by simpa using hc), Memory.read_cons, if_neg (by omega), if_neg (by omega)]

/-- A read after a write to the same cell gives the value written. -/
@[simp] theorem Memory.read_write_self (m : List (Nat × BitVec w)) (a : Nat) (v : BitVec w) :
    Memory.read (Memory.write m a v) a = v := by
  induction m with
  | nil => unfold Memory.write; split <;> simp_all [Memory.read_cons]
  | cons c m ih =>
    obtain ⟨k, x⟩ := c
    unfold Memory.write
    split_ifs with h1 h2 h3 h4
    · rw [Memory.read_cons, if_pos h1, ih]
    · rw [Memory.read_dropWhile_of_le m le_rfl, h3]
    · rw [Memory.read_cons, if_neg (Nat.lt_irrefl a), if_pos rfl]
    · rw [Memory.read_cons, if_neg h1, if_neg h2, h4]
    · rw [Memory.read_cons, if_neg (Nat.lt_irrefl a), if_pos rfl]

/-- A write leaves every other cell alone. -/
theorem Memory.read_write_of_ne (m : List (Nat × BitVec w)) {a b : Nat} (v : BitVec w) (h : b ≠ a) :
    Memory.read (Memory.write m a v) b = Memory.read m b := by
  induction m with
  | nil => unfold Memory.write; split_ifs <;> simp [Memory.read_cons, Ne.symm h]
  | cons c m ih =>
    obtain ⟨k, x⟩ := c
    unfold Memory.write
    split_ifs with h1 h2 h3 h4
    · simp only [Memory.read_cons, ih]
    · rw [Memory.read_cons]
      rcases Nat.lt_or_gt_of_ne h with hb | hb
      · rw [Memory.read_dropWhile_of_le m hb.le, if_neg (by omega), if_neg (by omega)]
      · rw [Memory.read_dropWhile_of_lt m hb, if_pos (by omega)]
    · subst h2; rw [Memory.read_cons, Memory.read_cons, if_neg h.symm]
      split_ifs <;> first | rfl | omega
    · rfl
    · rw [Memory.read_cons, if_neg (show a ≠ b from h.symm)]
      split_ifs with h5
      · rfl
      · rw [Memory.read_cons, if_neg (by omega), if_neg (by omega)]

theorem Memory.read_write (m : List (Nat × BitVec w)) (a b : Nat) (v : BitVec w) :
    Memory.read (Memory.write m a v) b = if b = a then v else Memory.read m b := by
  split_ifs with h
  · rw [h, Memory.read_write_self]
  · exact Memory.read_write_of_ne m v h

/-- What a range write does to every cell. -/
theorem Memory.read_writeRange (m : List (Nat × BitVec w)) (a b : Nat) (l : List (BitVec w)) :
    Memory.read (Memory.writeRange m a l) b =
      if a ≤ b ∧ b < a + l.length then l.getD (b - a) 0#w else Memory.read m b := by
  induction l generalizing m a with
  | nil => rw [if_neg (by rw [List.length_nil]; omega)]; rfl
  | cons v vs ih =>
    rw [Memory.writeRange, ih, Memory.read_write]
    simp only [List.length_cons]
    by_cases hb : b = a
    · subst hb; rw [if_neg (by omega), if_pos rfl, if_pos (by omega), Nat.sub_self]; rfl
    · by_cases hr : a + 1 ≤ b ∧ b < a + 1 + vs.length
      · rw [if_pos hr, if_pos (by omega), show b - a = (b - (a + 1)) + 1 by omega, List.getD_cons_succ]
      · rw [if_neg hr, if_neg hb, if_neg (by omega)]

/-- A range write leaves every cell outside the range alone. -/
theorem Memory.read_writeRange_outside (m : List (Nat × BitVec w)) {a b : Nat} (l : List (BitVec w))
    (h : b < a ∨ a + l.length ≤ b) : Memory.read (Memory.writeRange m a l) b = Memory.read m b := by
  rw [Memory.read_writeRange, if_neg (by omega)]

/-- A range write puts the `i`-th listed cell at `a + i`. -/
theorem Memory.read_writeRange_inside (m : List (Nat × BitVec w)) (a : Nat) {i : Nat} (l : List (BitVec w))
    (h : i < l.length) : Memory.read (Memory.writeRange m a l) (a + i) = l.getD i 0#w := by
  rw [Memory.read_writeRange, if_pos (by omega), Nat.add_sub_cancel_left]

/-! ### Range reads -/

@[simp] theorem Memory.readRange_length (m : List (Nat × BitVec w)) (a n : Nat) :
    (Memory.readRange m a n).length = n := by simp [Memory.readRange]

theorem Memory.readRange_getD (m : List (Nat × BitVec w)) (a : Nat) {n i : Nat} (h : i < n) (d : BitVec w) :
    (Memory.readRange m a n).getD i d = Memory.read m (a + i) := by
  simp [Memory.readRange, List.getD, List.getElem?_map, List.getElem?_range h]

/-- Two buffers that agree on a range read the same there. -/
theorem Memory.readRange_congr {m m' : List (Nat × BitVec w)} {a n : Nat}
    (h : ∀ i, i < n → Memory.read m (a + i) = Memory.read m' (a + i)) :
    Memory.readRange m a n = Memory.readRange m' a n :=
  List.map_congr_left fun i hi => h i (List.mem_range.mp hi)

/-! ### The canonical form -/

theorem Memory.wf_iff (m : List (Nat × BitVec w)) :
    Memory.wf m = true ↔
      m.Pairwise (fun c d => c.1 < d.1) ∧ ∀ c ∈ m, c.2 ≠ Memory.unlisted w := by
  induction m with
  | nil => simp [Memory.wf]
  | cons c m ih =>
    cases m with
    | nil => simp [Memory.wf]
    | cons d m =>
      simp only [Memory.wf, Bool.and_eq_true, ih, decide_eq_true_eq, bne_iff_ne, ne_eq, List.pairwise_cons,
        List.mem_cons, forall_eq_or_imp]
      constructor
      · rintro ⟨⟨h1, h2⟩, ⟨h3, h4⟩, h5, h6⟩
        exact ⟨⟨⟨h2, fun e he => Nat.lt_trans h2 (h3 e he)⟩, h3, h4⟩, h1, h5, h6⟩
      · rintro ⟨⟨⟨h2, _⟩, h3, h4⟩, h1, h5, h6⟩
        exact ⟨⟨h1, h2⟩, ⟨h3, h4⟩, h5, h6⟩

/-- Every cell of a written buffer was there before or is the one written, and is then not an unlisted value. -/
theorem Memory.mem_write {m : List (Nat × BitVec w)} {a : Nat} {v : BitVec w} {c : Nat × BitVec w}
    (h : c ∈ Memory.write m a v) : c ∈ m ∨ (c = (a, v) ∧ v ≠ Memory.unlisted w) := by
  induction m with
  | nil => unfold Memory.write at h; split_ifs at h <;> simp_all
  | cons d m ih =>
    unfold Memory.write at h
    split_ifs at h with h1 h2 h3 h4
    · rcases List.mem_cons.mp h with rfl | h
      · exact .inl (List.mem_cons_self ..)
      · exact (ih h).imp_left (List.mem_cons_of_mem _)
    · exact .inl (List.mem_cons_of_mem _ ((List.dropWhile_sublist _).subset h))
    · rcases List.mem_cons.mp h with rfl | h
      · exact .inr ⟨rfl, h3⟩
      · exact .inl (List.mem_cons_of_mem _ h)
    · exact .inl h
    · rcases List.mem_cons.mp h with rfl | h
      · exact .inr ⟨rfl, h4⟩
      · exact .inl h

/-- A write keeps the addresses strictly rising. -/
theorem Memory.write_sorted {m : List (Nat × BitVec w)} (a : Nat) (v : BitVec w)
    (h : m.Pairwise (fun c d => c.1 < d.1)) : (Memory.write m a v).Pairwise (fun c d => c.1 < d.1) := by
  induction m with
  | nil => unfold Memory.write; split_ifs <;> simp
  | cons d m ih =>
    obtain ⟨hd, hm⟩ := List.pairwise_cons.mp h
    unfold Memory.write
    split_ifs with h1 h2 h3 h4
    · refine List.pairwise_cons.mpr ⟨fun c hc => ?_, ih hm⟩
      rcases Memory.mem_write hc with hc | ⟨rfl, -⟩
      · exact hd c hc
      · exact h1
    · exact hm.sublist (List.dropWhile_sublist _)
    · exact List.pairwise_cons.mpr ⟨fun c hc => h2 ▸ hd c hc, hm⟩
    · exact h
    · refine List.pairwise_cons.mpr ⟨fun c hc => ?_, h⟩
      rcases List.mem_cons.mp hc with rfl | hc
      · show a < _; omega
      · have := hd c hc; show a < _; omega

/-- A write keeps the canonical form. -/
theorem Memory.write_wf {m : List (Nat × BitVec w)} (a : Nat) (v : BitVec w) (h : Memory.wf m = true) :
    Memory.wf (Memory.write m a v) = true := by
  rw [Memory.wf_iff] at h ⊢
  refine ⟨Memory.write_sorted a v h.1, fun c hc => ?_⟩
  rcases Memory.mem_write hc with hc | ⟨rfl, hv⟩
  · exact h.2 c hc
  · exact hv

/-- A range write keeps the canonical form. -/
theorem Memory.writeRange_wf {m : List (Nat × BitVec w)} (a : Nat) (l : List (BitVec w)) (h : Memory.wf m = true) :
    Memory.wf (Memory.writeRange m a l) = true := by
  induction l generalizing m a with
  | nil => exact h
  | cons v vs ih => exact ih (a + 1) (Memory.write_wf a v h)

/-- A write inside the buffer lists no cell outside it. -/
theorem Memory.write_within {size : Nat} {m : List (Nat × BitVec w)} {a : Nat} (v : BitVec w)
    (h : Memory.within size m = true) (ha : a < size) : Memory.within size (Memory.write m a v) = true := by
  simp only [Memory.within, List.all_eq_true, decide_eq_true_eq] at h ⊢
  intro c hc
  rcases Memory.mem_write hc with hc | ⟨rfl, -⟩
  · exact h c hc
  · exact ha

/-- A range write inside the buffer lists no cell outside it. -/
theorem Memory.writeRange_within {size : Nat} {m : List (Nat × BitVec w)} {a : Nat} (l : List (BitVec w))
    (h : Memory.within size m = true) (ha : a + l.length ≤ size) :
    Memory.within size (Memory.writeRange m a l) = true := by
  induction l generalizing m a with
  | nil => exact h
  | cons v vs ih =>
    rw [List.length_cons] at ha
    exact ih (Memory.write_within v h (by omega)) (by omega)

/-- A buffer whose listed cells all lie above `a` reads as unlisted at `a`. -/
theorem Memory.read_of_forall_lt {m : List (Nat × BitVec w)} {a : Nat} (h : ∀ c ∈ m, a < c.1) :
    Memory.read m a = Memory.unlisted w := by
  cases m with
  | nil => rfl
  | cons c m =>
    have := h c (List.mem_cons_self ..)
    rw [Memory.read_cons, if_neg (by omega), if_neg (by omega)]

/-- In the canonical form equal contents are equal lists. -/
theorem Memory.ext {m m' : List (Nat × BitVec w)} (h : Memory.wf m = true) (h' : Memory.wf m' = true)
    (he : ∀ a, Memory.read m a = Memory.read m' a) : m = m' := by
  rw [Memory.wf_iff] at h h'
  induction m generalizing m' with
  | nil =>
    cases m' with
    | nil => rfl
    | cons d m' =>
      have := he d.1
      rw [Memory.read_nil, Memory.read_cons, if_neg (Nat.lt_irrefl _), if_pos rfl] at this
      exact absurd this.symm (h'.2 d (List.mem_cons_self ..))
  | cons c m ih =>
    obtain ⟨hs, hz⟩ := h
    obtain ⟨hc, hm⟩ := List.pairwise_cons.mp hs
    have hcz := hz c (List.mem_cons_self ..)
    cases m' with
    | nil =>
      have := he c.1
      rw [Memory.read_nil, Memory.read_cons, if_neg (Nat.lt_irrefl _), if_pos rfl] at this
      exact absurd this hcz
    | cons d m' =>
      obtain ⟨hs', hz'⟩ := h'
      obtain ⟨hd, hm'⟩ := List.pairwise_cons.mp hs'
      have hdz := hz' d (List.mem_cons_self ..)
      have hkey : c.1 = d.1 := by
        rcases Nat.lt_trichotomy c.1 d.1 with hlt | heq | hgt
        · have := he c.1
          rw [Memory.read_cons, if_neg (Nat.lt_irrefl _), if_pos rfl, Memory.read_cons, if_neg (by omega),
            if_neg (by omega)] at this
          exact absurd this hcz
        · exact heq
        · have := he d.1
          rw [Memory.read_cons, if_neg (by omega), if_neg (by omega), Memory.read_cons, if_neg (Nat.lt_irrefl _),
            if_pos rfl] at this
          exact absurd this.symm hdz
      have hval : c.2 = d.2 := by
        have := he c.1
        rwa [Memory.read_cons, if_neg (Nat.lt_irrefl _), if_pos rfl, Memory.read_cons, if_neg (by omega),
          if_pos hkey.symm] at this
      have htail : m = m' := by
        refine ih ⟨hm, fun e he => hz e (List.mem_cons_of_mem _ he)⟩
          ⟨hm', fun e he => hz' e (List.mem_cons_of_mem _ he)⟩ fun a => ?_
        rcases Nat.lt_or_ge c.1 a with ha | ha
        · have := he a
          rwa [Memory.read_cons, if_pos ha, Memory.read_cons, if_pos (by omega)] at this
        · rw [Memory.read_of_forall_lt fun e hm => Nat.lt_of_le_of_lt ha (hc e hm),
            Memory.read_of_forall_lt fun e hm => Nat.lt_of_le_of_lt ha (hkey ▸ hd e hm)]
      rw [show c = d from Prod.ext hkey hval, htail]

/-- The buffers of the reset state are in the canonical form. -/
theorem State.reset_wf : Memory.wf State.reset.bb = true ∧ Memory.wf State.reset.sb = true := ⟨rfl, rfl⟩

end Sys2Proof.Machine
end

