-- ==== Sys2Proof/Laws/State.lean ====
section
/-!
SUPPORT. What each named update does to each field of the state: one lemma per field per update.
-/

namespace Sys2Proof.Machine

open Sys2Proof

/-! ### State.setBB -/

@[simp] theorem State.setBB_cfg (s : State) (m : List Host.Cell) : (s.setBB m).cfg = s.cfg := rfl
@[simp] theorem State.setBB_err (s : State) (m : List Host.Cell) : (s.setBB m).err = s.err := rfl
@[simp] theorem State.setBB_errInfo (s : State) (m : List Host.Cell) : (s.setBB m).errInfo = s.errInfo := rfl
@[simp] theorem State.setBB_baddr (s : State) (m : List Host.Cell) : (s.setBB m).baddr = s.baddr := rfl
@[simp] theorem State.setBB_blen (s : State) (m : List Host.Cell) : (s.setBB m).blen = s.blen := rfl
@[simp] theorem State.setBB_saddr (s : State) (m : List Host.Cell) : (s.setBB m).saddr = s.saddr := rfl
@[simp] theorem State.setBB_slen (s : State) (m : List Host.Cell) : (s.setBB m).slen = s.slen := rfl
@[simp] theorem State.setBB_hdrCsize (s : State) (m : List Host.Cell) : (s.setBB m).hdrCsize = s.hdrCsize := rfl
@[simp] theorem State.setBB_hdrOsize (s : State) (m : List Host.Cell) : (s.setBB m).hdrOsize = s.hdrOsize := rfl
@[simp] theorem State.setBB_hdrCrc (s : State) (m : List Host.Cell) : (s.setBB m).hdrCrc = s.hdrCrc := rfl
@[simp] theorem State.setBB_hdrFlags (s : State) (m : List Host.Cell) : (s.setBB m).hdrFlags = s.hdrFlags := rfl
@[simp] theorem State.setBB_hdrAvail (s : State) (m : List Host.Cell) : (s.setBB m).hdrAvail = s.hdrAvail := rfl
@[simp] theorem State.setBB_crcValue (s : State) (m : List Host.Cell) : (s.setBB m).crcValue = s.crcValue := rfl
@[simp] theorem State.setBB_palCtrl (s : State) (m : List Host.Cell) : (s.setBB m).palCtrl = s.palCtrl := rfl
@[simp] theorem State.setBB_palThresh (s : State) (m : List Host.Cell) : (s.setBB m).palThresh = s.palThresh := rfl
@[simp] theorem State.setBB_palRgb (s : State) (m : List Host.Cell) : (s.setBB m).palRgb = s.palRgb := rfl
@[simp] theorem State.setBB_palSym (s : State) (m : List Host.Cell) : (s.setBB m).palSym = s.palSym := rfl
@[simp] theorem State.setBB_palDist (s : State) (m : List Host.Cell) : (s.setBB m).palDist = s.palDist := rfl
@[simp] theorem State.setBB_bb (s : State) (m : List Host.Cell) : (s.setBB m).bb = m := rfl
@[simp] theorem State.setBB_sb (s : State) (m : List Host.Cell) : (s.setBB m).sb = s.sb := rfl
@[simp] theorem State.setBB_script (s : State) (m : List Host.Cell) : (s.setBB m).script = s.script := rfl
@[simp] theorem State.setBB_replies (s : State) (m : List Host.Cell) : (s.setBB m).replies = s.replies := rfl

/-! ### State.setSB -/

@[simp] theorem State.setSB_cfg (s : State) (m : List (Nat × Sym)) : (s.setSB m).cfg = s.cfg := rfl
@[simp] theorem State.setSB_err (s : State) (m : List (Nat × Sym)) : (s.setSB m).err = s.err := rfl
@[simp] theorem State.setSB_errInfo (s : State) (m : List (Nat × Sym)) : (s.setSB m).errInfo = s.errInfo := rfl
@[simp] theorem State.setSB_baddr (s : State) (m : List (Nat × Sym)) : (s.setSB m).baddr = s.baddr := rfl
@[simp] theorem State.setSB_blen (s : State) (m : List (Nat × Sym)) : (s.setSB m).blen = s.blen := rfl
@[simp] theorem State.setSB_saddr (s : State) (m : List (Nat × Sym)) : (s.setSB m).saddr = s.saddr := rfl
@[simp] theorem State.setSB_slen (s : State) (m : List (Nat × Sym)) : (s.setSB m).slen = s.slen := rfl
@[simp] theorem State.setSB_hdrCsize (s : State) (m : List (Nat × Sym)) : (s.setSB m).hdrCsize = s.hdrCsize := rfl
@[simp] theorem State.setSB_hdrOsize (s : State) (m : List (Nat × Sym)) : (s.setSB m).hdrOsize = s.hdrOsize := rfl
@[simp] theorem State.setSB_hdrCrc (s : State) (m : List (Nat × Sym)) : (s.setSB m).hdrCrc = s.hdrCrc := rfl
@[simp] theorem State.setSB_hdrFlags (s : State) (m : List (Nat × Sym)) : (s.setSB m).hdrFlags = s.hdrFlags := rfl
@[simp] theorem State.setSB_hdrAvail (s : State) (m : List (Nat × Sym)) : (s.setSB m).hdrAvail = s.hdrAvail := rfl
@[simp] theorem State.setSB_crcValue (s : State) (m : List (Nat × Sym)) : (s.setSB m).crcValue = s.crcValue := rfl
@[simp] theorem State.setSB_palCtrl (s : State) (m : List (Nat × Sym)) : (s.setSB m).palCtrl = s.palCtrl := rfl
@[simp] theorem State.setSB_palThresh (s : State) (m : List (Nat × Sym)) : (s.setSB m).palThresh = s.palThresh := rfl
@[simp] theorem State.setSB_palRgb (s : State) (m : List (Nat × Sym)) : (s.setSB m).palRgb = s.palRgb := rfl
@[simp] theorem State.setSB_palSym (s : State) (m : List (Nat × Sym)) : (s.setSB m).palSym = s.palSym := rfl
@[simp] theorem State.setSB_palDist (s : State) (m : List (Nat × Sym)) : (s.setSB m).palDist = s.palDist := rfl
@[simp] theorem State.setSB_bb (s : State) (m : List (Nat × Sym)) : (s.setSB m).bb = s.bb := rfl
@[simp] theorem State.setSB_sb (s : State) (m : List (Nat × Sym)) : (s.setSB m).sb = m := rfl
@[simp] theorem State.setSB_script (s : State) (m : List (Nat × Sym)) : (s.setSB m).script = s.script := rfl
@[simp] theorem State.setSB_replies (s : State) (m : List (Nat × Sym)) : (s.setSB m).replies = s.replies := rfl

/-! ### State.setSlen -/

@[simp] theorem State.setSlen_cfg (s : State) (n : Word) : (s.setSlen n).cfg = s.cfg := rfl
@[simp] theorem State.setSlen_err (s : State) (n : Word) : (s.setSlen n).err = s.err := rfl
@[simp] theorem State.setSlen_errInfo (s : State) (n : Word) : (s.setSlen n).errInfo = s.errInfo := rfl
@[simp] theorem State.setSlen_baddr (s : State) (n : Word) : (s.setSlen n).baddr = s.baddr := rfl
@[simp] theorem State.setSlen_blen (s : State) (n : Word) : (s.setSlen n).blen = s.blen := rfl
@[simp] theorem State.setSlen_saddr (s : State) (n : Word) : (s.setSlen n).saddr = s.saddr := rfl
@[simp] theorem State.setSlen_slen (s : State) (n : Word) : (s.setSlen n).slen = n := rfl
@[simp] theorem State.setSlen_hdrCsize (s : State) (n : Word) : (s.setSlen n).hdrCsize = s.hdrCsize := rfl
@[simp] theorem State.setSlen_hdrOsize (s : State) (n : Word) : (s.setSlen n).hdrOsize = s.hdrOsize := rfl
@[simp] theorem State.setSlen_hdrCrc (s : State) (n : Word) : (s.setSlen n).hdrCrc = s.hdrCrc := rfl
@[simp] theorem State.setSlen_hdrFlags (s : State) (n : Word) : (s.setSlen n).hdrFlags = s.hdrFlags := rfl
@[simp] theorem State.setSlen_hdrAvail (s : State) (n : Word) : (s.setSlen n).hdrAvail = s.hdrAvail := rfl
@[simp] theorem State.setSlen_crcValue (s : State) (n : Word) : (s.setSlen n).crcValue = s.crcValue := rfl
@[simp] theorem State.setSlen_palCtrl (s : State) (n : Word) : (s.setSlen n).palCtrl = s.palCtrl := rfl
@[simp] theorem State.setSlen_palThresh (s : State) (n : Word) : (s.setSlen n).palThresh = s.palThresh := rfl
@[simp] theorem State.setSlen_palRgb (s : State) (n : Word) : (s.setSlen n).palRgb = s.palRgb := rfl
@[simp] theorem State.setSlen_palSym (s : State) (n : Word) : (s.setSlen n).palSym = s.palSym := rfl
@[simp] theorem State.setSlen_palDist (s : State) (n : Word) : (s.setSlen n).palDist = s.palDist := rfl
@[simp] theorem State.setSlen_bb (s : State) (n : Word) : (s.setSlen n).bb = s.bb := rfl
@[simp] theorem State.setSlen_sb (s : State) (n : Word) : (s.setSlen n).sb = s.sb := rfl
@[simp] theorem State.setSlen_script (s : State) (n : Word) : (s.setSlen n).script = s.script := rfl
@[simp] theorem State.setSlen_replies (s : State) (n : Word) : (s.setSlen n).replies = s.replies := rfl

/-! ### State.setHeader -/

@[simp] theorem State.setHeader_cfg (s : State) (cs os cr : Word) (f : BitVec 1) : (s.setHeader cs os cr f).cfg = s.cfg := rfl
@[simp] theorem State.setHeader_err (s : State) (cs os cr : Word) (f : BitVec 1) : (s.setHeader cs os cr f).err = s.err := rfl
@[simp] theorem State.setHeader_errInfo (s : State) (cs os cr : Word) (f : BitVec 1) : (s.setHeader cs os cr f).errInfo = s.errInfo := rfl
@[simp] theorem State.setHeader_baddr (s : State) (cs os cr : Word) (f : BitVec 1) : (s.setHeader cs os cr f).baddr = s.baddr := rfl
@[simp] theorem State.setHeader_blen (s : State) (cs os cr : Word) (f : BitVec 1) : (s.setHeader cs os cr f).blen = s.blen := rfl
@[simp] theorem State.setHeader_saddr (s : State) (cs os cr : Word) (f : BitVec 1) : (s.setHeader cs os cr f).saddr = s.saddr := rfl
@[simp] theorem State.setHeader_slen (s : State) (cs os cr : Word) (f : BitVec 1) : (s.setHeader cs os cr f).slen = s.slen := rfl
@[simp] theorem State.setHeader_hdrCsize (s : State) (cs os cr : Word) (f : BitVec 1) : (s.setHeader cs os cr f).hdrCsize = cs := rfl
@[simp] theorem State.setHeader_hdrOsize (s : State) (cs os cr : Word) (f : BitVec 1) : (s.setHeader cs os cr f).hdrOsize = os := rfl
@[simp] theorem State.setHeader_hdrCrc (s : State) (cs os cr : Word) (f : BitVec 1) : (s.setHeader cs os cr f).hdrCrc = cr := rfl
@[simp] theorem State.setHeader_hdrFlags (s : State) (cs os cr : Word) (f : BitVec 1) : (s.setHeader cs os cr f).hdrFlags = f := rfl
@[simp] theorem State.setHeader_hdrAvail (s : State) (cs os cr : Word) (f : BitVec 1) : (s.setHeader cs os cr f).hdrAvail = s.hdrAvail := rfl
@[simp] theorem State.setHeader_crcValue (s : State) (cs os cr : Word) (f : BitVec 1) : (s.setHeader cs os cr f).crcValue = s.crcValue := rfl
@[simp] theorem State.setHeader_palCtrl (s : State) (cs os cr : Word) (f : BitVec 1) : (s.setHeader cs os cr f).palCtrl = s.palCtrl := rfl
@[simp] theorem State.setHeader_palThresh (s : State) (cs os cr : Word) (f : BitVec 1) : (s.setHeader cs os cr f).palThresh = s.palThresh := rfl
@[simp] theorem State.setHeader_palRgb (s : State) (cs os cr : Word) (f : BitVec 1) : (s.setHeader cs os cr f).palRgb = s.palRgb := rfl
@[simp] theorem State.setHeader_palSym (s : State) (cs os cr : Word) (f : BitVec 1) : (s.setHeader cs os cr f).palSym = s.palSym := rfl
@[simp] theorem State.setHeader_palDist (s : State) (cs os cr : Word) (f : BitVec 1) : (s.setHeader cs os cr f).palDist = s.palDist := rfl
@[simp] theorem State.setHeader_bb (s : State) (cs os cr : Word) (f : BitVec 1) : (s.setHeader cs os cr f).bb = s.bb := rfl
@[simp] theorem State.setHeader_sb (s : State) (cs os cr : Word) (f : BitVec 1) : (s.setHeader cs os cr f).sb = s.sb := rfl
@[simp] theorem State.setHeader_script (s : State) (cs os cr : Word) (f : BitVec 1) : (s.setHeader cs os cr f).script = s.script := rfl
@[simp] theorem State.setHeader_replies (s : State) (cs os cr : Word) (f : BitVec 1) : (s.setHeader cs os cr f).replies = s.replies := rfl

/-! ### State.setCrcValue -/

@[simp] theorem State.setCrcValue_cfg (s : State) (v : Word) : (s.setCrcValue v).cfg = s.cfg := rfl
@[simp] theorem State.setCrcValue_err (s : State) (v : Word) : (s.setCrcValue v).err = s.err := rfl
@[simp] theorem State.setCrcValue_errInfo (s : State) (v : Word) : (s.setCrcValue v).errInfo = s.errInfo := rfl
@[simp] theorem State.setCrcValue_baddr (s : State) (v : Word) : (s.setCrcValue v).baddr = s.baddr := rfl
@[simp] theorem State.setCrcValue_blen (s : State) (v : Word) : (s.setCrcValue v).blen = s.blen := rfl
@[simp] theorem State.setCrcValue_saddr (s : State) (v : Word) : (s.setCrcValue v).saddr = s.saddr := rfl
@[simp] theorem State.setCrcValue_slen (s : State) (v : Word) : (s.setCrcValue v).slen = s.slen := rfl
@[simp] theorem State.setCrcValue_hdrCsize (s : State) (v : Word) : (s.setCrcValue v).hdrCsize = s.hdrCsize := rfl
@[simp] theorem State.setCrcValue_hdrOsize (s : State) (v : Word) : (s.setCrcValue v).hdrOsize = s.hdrOsize := rfl
@[simp] theorem State.setCrcValue_hdrCrc (s : State) (v : Word) : (s.setCrcValue v).hdrCrc = s.hdrCrc := rfl
@[simp] theorem State.setCrcValue_hdrFlags (s : State) (v : Word) : (s.setCrcValue v).hdrFlags = s.hdrFlags := rfl
@[simp] theorem State.setCrcValue_hdrAvail (s : State) (v : Word) : (s.setCrcValue v).hdrAvail = s.hdrAvail := rfl
@[simp] theorem State.setCrcValue_crcValue (s : State) (v : Word) : (s.setCrcValue v).crcValue = v := rfl
@[simp] theorem State.setCrcValue_palCtrl (s : State) (v : Word) : (s.setCrcValue v).palCtrl = s.palCtrl := rfl
@[simp] theorem State.setCrcValue_palThresh (s : State) (v : Word) : (s.setCrcValue v).palThresh = s.palThresh := rfl
@[simp] theorem State.setCrcValue_palRgb (s : State) (v : Word) : (s.setCrcValue v).palRgb = s.palRgb := rfl
@[simp] theorem State.setCrcValue_palSym (s : State) (v : Word) : (s.setCrcValue v).palSym = s.palSym := rfl
@[simp] theorem State.setCrcValue_palDist (s : State) (v : Word) : (s.setCrcValue v).palDist = s.palDist := rfl
@[simp] theorem State.setCrcValue_bb (s : State) (v : Word) : (s.setCrcValue v).bb = s.bb := rfl
@[simp] theorem State.setCrcValue_sb (s : State) (v : Word) : (s.setCrcValue v).sb = s.sb := rfl
@[simp] theorem State.setCrcValue_script (s : State) (v : Word) : (s.setCrcValue v).script = s.script := rfl
@[simp] theorem State.setCrcValue_replies (s : State) (v : Word) : (s.setCrcValue v).replies = s.replies := rfl

/-! ### State.setPalRgb -/

@[simp] theorem State.setPalRgb_cfg (s : State) (c : Rgb) : (s.setPalRgb c).cfg = s.cfg := rfl
@[simp] theorem State.setPalRgb_err (s : State) (c : Rgb) : (s.setPalRgb c).err = s.err := rfl
@[simp] theorem State.setPalRgb_errInfo (s : State) (c : Rgb) : (s.setPalRgb c).errInfo = s.errInfo := rfl
@[simp] theorem State.setPalRgb_baddr (s : State) (c : Rgb) : (s.setPalRgb c).baddr = s.baddr := rfl
@[simp] theorem State.setPalRgb_blen (s : State) (c : Rgb) : (s.setPalRgb c).blen = s.blen := rfl
@[simp] theorem State.setPalRgb_saddr (s : State) (c : Rgb) : (s.setPalRgb c).saddr = s.saddr := rfl
@[simp] theorem State.setPalRgb_slen (s : State) (c : Rgb) : (s.setPalRgb c).slen = s.slen := rfl
@[simp] theorem State.setPalRgb_hdrCsize (s : State) (c : Rgb) : (s.setPalRgb c).hdrCsize = s.hdrCsize := rfl
@[simp] theorem State.setPalRgb_hdrOsize (s : State) (c : Rgb) : (s.setPalRgb c).hdrOsize = s.hdrOsize := rfl
@[simp] theorem State.setPalRgb_hdrCrc (s : State) (c : Rgb) : (s.setPalRgb c).hdrCrc = s.hdrCrc := rfl
@[simp] theorem State.setPalRgb_hdrFlags (s : State) (c : Rgb) : (s.setPalRgb c).hdrFlags = s.hdrFlags := rfl
@[simp] theorem State.setPalRgb_hdrAvail (s : State) (c : Rgb) : (s.setPalRgb c).hdrAvail = s.hdrAvail := rfl
@[simp] theorem State.setPalRgb_crcValue (s : State) (c : Rgb) : (s.setPalRgb c).crcValue = s.crcValue := rfl
@[simp] theorem State.setPalRgb_palCtrl (s : State) (c : Rgb) : (s.setPalRgb c).palCtrl = s.palCtrl := rfl
@[simp] theorem State.setPalRgb_palThresh (s : State) (c : Rgb) : (s.setPalRgb c).palThresh = s.palThresh := rfl
@[simp] theorem State.setPalRgb_palRgb (s : State) (c : Rgb) : (s.setPalRgb c).palRgb = c := rfl
@[simp] theorem State.setPalRgb_palSym (s : State) (c : Rgb) : (s.setPalRgb c).palSym = s.palSym := rfl
@[simp] theorem State.setPalRgb_palDist (s : State) (c : Rgb) : (s.setPalRgb c).palDist = s.palDist := rfl
@[simp] theorem State.setPalRgb_bb (s : State) (c : Rgb) : (s.setPalRgb c).bb = s.bb := rfl
@[simp] theorem State.setPalRgb_sb (s : State) (c : Rgb) : (s.setPalRgb c).sb = s.sb := rfl
@[simp] theorem State.setPalRgb_script (s : State) (c : Rgb) : (s.setPalRgb c).script = s.script := rfl
@[simp] theorem State.setPalRgb_replies (s : State) (c : Rgb) : (s.setPalRgb c).replies = s.replies := rfl

/-! ### State.setPalMatch -/

@[simp] theorem State.setPalMatch_cfg (s : State) (k : Sym) (m : Word) : (s.setPalMatch k m).cfg = s.cfg := rfl
@[simp] theorem State.setPalMatch_err (s : State) (k : Sym) (m : Word) : (s.setPalMatch k m).err = s.err := rfl
@[simp] theorem State.setPalMatch_errInfo (s : State) (k : Sym) (m : Word) : (s.setPalMatch k m).errInfo = s.errInfo := rfl
@[simp] theorem State.setPalMatch_baddr (s : State) (k : Sym) (m : Word) : (s.setPalMatch k m).baddr = s.baddr := rfl
@[simp] theorem State.setPalMatch_blen (s : State) (k : Sym) (m : Word) : (s.setPalMatch k m).blen = s.blen := rfl
@[simp] theorem State.setPalMatch_saddr (s : State) (k : Sym) (m : Word) : (s.setPalMatch k m).saddr = s.saddr := rfl
@[simp] theorem State.setPalMatch_slen (s : State) (k : Sym) (m : Word) : (s.setPalMatch k m).slen = s.slen := rfl
@[simp] theorem State.setPalMatch_hdrCsize (s : State) (k : Sym) (m : Word) : (s.setPalMatch k m).hdrCsize = s.hdrCsize := rfl
@[simp] theorem State.setPalMatch_hdrOsize (s : State) (k : Sym) (m : Word) : (s.setPalMatch k m).hdrOsize = s.hdrOsize := rfl
@[simp] theorem State.setPalMatch_hdrCrc (s : State) (k : Sym) (m : Word) : (s.setPalMatch k m).hdrCrc = s.hdrCrc := rfl
@[simp] theorem State.setPalMatch_hdrFlags (s : State) (k : Sym) (m : Word) : (s.setPalMatch k m).hdrFlags = s.hdrFlags := rfl
@[simp] theorem State.setPalMatch_hdrAvail (s : State) (k : Sym) (m : Word) : (s.setPalMatch k m).hdrAvail = s.hdrAvail := rfl
@[simp] theorem State.setPalMatch_crcValue (s : State) (k : Sym) (m : Word) : (s.setPalMatch k m).crcValue = s.crcValue := rfl
@[simp] theorem State.setPalMatch_palCtrl (s : State) (k : Sym) (m : Word) : (s.setPalMatch k m).palCtrl = s.palCtrl := rfl
@[simp] theorem State.setPalMatch_palThresh (s : State) (k : Sym) (m : Word) : (s.setPalMatch k m).palThresh = s.palThresh := rfl
@[simp] theorem State.setPalMatch_palRgb (s : State) (k : Sym) (m : Word) : (s.setPalMatch k m).palRgb = s.palRgb := rfl
@[simp] theorem State.setPalMatch_palSym (s : State) (k : Sym) (m : Word) : (s.setPalMatch k m).palSym = k := rfl
@[simp] theorem State.setPalMatch_palDist (s : State) (k : Sym) (m : Word) : (s.setPalMatch k m).palDist = m := rfl
@[simp] theorem State.setPalMatch_bb (s : State) (k : Sym) (m : Word) : (s.setPalMatch k m).bb = s.bb := rfl
@[simp] theorem State.setPalMatch_sb (s : State) (k : Sym) (m : Word) : (s.setPalMatch k m).sb = s.sb := rfl
@[simp] theorem State.setPalMatch_script (s : State) (k : Sym) (m : Word) : (s.setPalMatch k m).script = s.script := rfl
@[simp] theorem State.setPalMatch_replies (s : State) (k : Sym) (m : Word) : (s.setPalMatch k m).replies = s.replies := rfl

/-! ### State.pushReply -/

@[simp] theorem State.pushReply_cfg (s : State) (r : Reply) : (s.pushReply r).cfg = s.cfg := rfl
@[simp] theorem State.pushReply_err (s : State) (r : Reply) : (s.pushReply r).err = s.err := rfl
@[simp] theorem State.pushReply_errInfo (s : State) (r : Reply) : (s.pushReply r).errInfo = s.errInfo := rfl
@[simp] theorem State.pushReply_baddr (s : State) (r : Reply) : (s.pushReply r).baddr = s.baddr := rfl
@[simp] theorem State.pushReply_blen (s : State) (r : Reply) : (s.pushReply r).blen = s.blen := rfl
@[simp] theorem State.pushReply_saddr (s : State) (r : Reply) : (s.pushReply r).saddr = s.saddr := rfl
@[simp] theorem State.pushReply_slen (s : State) (r : Reply) : (s.pushReply r).slen = s.slen := rfl
@[simp] theorem State.pushReply_hdrCsize (s : State) (r : Reply) : (s.pushReply r).hdrCsize = s.hdrCsize := rfl
@[simp] theorem State.pushReply_hdrOsize (s : State) (r : Reply) : (s.pushReply r).hdrOsize = s.hdrOsize := rfl
@[simp] theorem State.pushReply_hdrCrc (s : State) (r : Reply) : (s.pushReply r).hdrCrc = s.hdrCrc := rfl
@[simp] theorem State.pushReply_hdrFlags (s : State) (r : Reply) : (s.pushReply r).hdrFlags = s.hdrFlags := rfl
@[simp] theorem State.pushReply_hdrAvail (s : State) (r : Reply) : (s.pushReply r).hdrAvail = s.hdrAvail := rfl
@[simp] theorem State.pushReply_crcValue (s : State) (r : Reply) : (s.pushReply r).crcValue = s.crcValue := rfl
@[simp] theorem State.pushReply_palCtrl (s : State) (r : Reply) : (s.pushReply r).palCtrl = s.palCtrl := rfl
@[simp] theorem State.pushReply_palThresh (s : State) (r : Reply) : (s.pushReply r).palThresh = s.palThresh := rfl
@[simp] theorem State.pushReply_palRgb (s : State) (r : Reply) : (s.pushReply r).palRgb = s.palRgb := rfl
@[simp] theorem State.pushReply_palSym (s : State) (r : Reply) : (s.pushReply r).palSym = s.palSym := rfl
@[simp] theorem State.pushReply_palDist (s : State) (r : Reply) : (s.pushReply r).palDist = s.palDist := rfl
@[simp] theorem State.pushReply_bb (s : State) (r : Reply) : (s.pushReply r).bb = s.bb := rfl
@[simp] theorem State.pushReply_sb (s : State) (r : Reply) : (s.pushReply r).sb = s.sb := rfl
@[simp] theorem State.pushReply_script (s : State) (r : Reply) : (s.pushReply r).script = s.script := rfl
@[simp] theorem State.pushReply_replies (s : State) (r : Reply) : (s.pushReply r).replies = r :: s.replies := rfl

/-! ### State.setScript -/

@[simp] theorem State.setScript_cfg (s : State) (l : List HostAction) : (s.setScript l).cfg = s.cfg := rfl
@[simp] theorem State.setScript_err (s : State) (l : List HostAction) : (s.setScript l).err = s.err := rfl
@[simp] theorem State.setScript_errInfo (s : State) (l : List HostAction) : (s.setScript l).errInfo = s.errInfo := rfl
@[simp] theorem State.setScript_baddr (s : State) (l : List HostAction) : (s.setScript l).baddr = s.baddr := rfl
@[simp] theorem State.setScript_blen (s : State) (l : List HostAction) : (s.setScript l).blen = s.blen := rfl
@[simp] theorem State.setScript_saddr (s : State) (l : List HostAction) : (s.setScript l).saddr = s.saddr := rfl
@[simp] theorem State.setScript_slen (s : State) (l : List HostAction) : (s.setScript l).slen = s.slen := rfl
@[simp] theorem State.setScript_hdrCsize (s : State) (l : List HostAction) : (s.setScript l).hdrCsize = s.hdrCsize := rfl
@[simp] theorem State.setScript_hdrOsize (s : State) (l : List HostAction) : (s.setScript l).hdrOsize = s.hdrOsize := rfl
@[simp] theorem State.setScript_hdrCrc (s : State) (l : List HostAction) : (s.setScript l).hdrCrc = s.hdrCrc := rfl
@[simp] theorem State.setScript_hdrFlags (s : State) (l : List HostAction) : (s.setScript l).hdrFlags = s.hdrFlags := rfl
@[simp] theorem State.setScript_hdrAvail (s : State) (l : List HostAction) : (s.setScript l).hdrAvail = s.hdrAvail := rfl
@[simp] theorem State.setScript_crcValue (s : State) (l : List HostAction) : (s.setScript l).crcValue = s.crcValue := rfl
@[simp] theorem State.setScript_palCtrl (s : State) (l : List HostAction) : (s.setScript l).palCtrl = s.palCtrl := rfl
@[simp] theorem State.setScript_palThresh (s : State) (l : List HostAction) : (s.setScript l).palThresh = s.palThresh := rfl
@[simp] theorem State.setScript_palRgb (s : State) (l : List HostAction) : (s.setScript l).palRgb = s.palRgb := rfl
@[simp] theorem State.setScript_palSym (s : State) (l : List HostAction) : (s.setScript l).palSym = s.palSym := rfl
@[simp] theorem State.setScript_palDist (s : State) (l : List HostAction) : (s.setScript l).palDist = s.palDist := rfl
@[simp] theorem State.setScript_bb (s : State) (l : List HostAction) : (s.setScript l).bb = s.bb := rfl
@[simp] theorem State.setScript_sb (s : State) (l : List HostAction) : (s.setScript l).sb = s.sb := rfl
@[simp] theorem State.setScript_script (s : State) (l : List HostAction) : (s.setScript l).script = l := rfl
@[simp] theorem State.setScript_replies (s : State) (l : List HostAction) : (s.setScript l).replies = s.replies := rfl

/-! ### State.raise -/

@[simp] theorem State.raise_cfg (s : State) (f : FaultRecord) : (s.raise f).cfg = s.cfg := rfl
@[simp] theorem State.raise_err (s : State) (f : FaultRecord) : (s.raise f).err = f.kind.code := rfl
@[simp] theorem State.raise_errInfo (s : State) (f : FaultRecord) : (s.raise f).errInfo = f.info := rfl
@[simp] theorem State.raise_baddr (s : State) (f : FaultRecord) : (s.raise f).baddr = s.baddr := rfl
@[simp] theorem State.raise_blen (s : State) (f : FaultRecord) : (s.raise f).blen = s.blen := rfl
@[simp] theorem State.raise_saddr (s : State) (f : FaultRecord) : (s.raise f).saddr = s.saddr := rfl
@[simp] theorem State.raise_slen (s : State) (f : FaultRecord) : (s.raise f).slen = s.slen := rfl
@[simp] theorem State.raise_hdrCsize (s : State) (f : FaultRecord) : (s.raise f).hdrCsize = s.hdrCsize := rfl
@[simp] theorem State.raise_hdrOsize (s : State) (f : FaultRecord) : (s.raise f).hdrOsize = s.hdrOsize := rfl
@[simp] theorem State.raise_hdrCrc (s : State) (f : FaultRecord) : (s.raise f).hdrCrc = s.hdrCrc := rfl
@[simp] theorem State.raise_hdrFlags (s : State) (f : FaultRecord) : (s.raise f).hdrFlags = s.hdrFlags := rfl
@[simp] theorem State.raise_hdrAvail (s : State) (f : FaultRecord) : (s.raise f).hdrAvail = s.hdrAvail := rfl
@[simp] theorem State.raise_crcValue (s : State) (f : FaultRecord) : (s.raise f).crcValue = s.crcValue := rfl
@[simp] theorem State.raise_palCtrl (s : State) (f : FaultRecord) : (s.raise f).palCtrl = s.palCtrl := rfl
@[simp] theorem State.raise_palThresh (s : State) (f : FaultRecord) : (s.raise f).palThresh = s.palThresh := rfl
@[simp] theorem State.raise_palRgb (s : State) (f : FaultRecord) : (s.raise f).palRgb = s.palRgb := rfl
@[simp] theorem State.raise_palSym (s : State) (f : FaultRecord) : (s.raise f).palSym = s.palSym := rfl
@[simp] theorem State.raise_palDist (s : State) (f : FaultRecord) : (s.raise f).palDist = s.palDist := rfl
@[simp] theorem State.raise_bb (s : State) (f : FaultRecord) : (s.raise f).bb = s.bb := rfl
@[simp] theorem State.raise_sb (s : State) (f : FaultRecord) : (s.raise f).sb = s.sb := rfl
@[simp] theorem State.raise_script (s : State) (f : FaultRecord) : (s.raise f).script = s.script := rfl
@[simp] theorem State.raise_replies (s : State) (f : FaultRecord) : (s.raise f).replies = s.replies := rfl

/-! ### State.sessionReset -/

@[simp] theorem State.sessionReset_cfg (s : State) : s.sessionReset.cfg = s.cfg := rfl
@[simp] theorem State.sessionReset_err (s : State) : s.sessionReset.err = 0#8 := rfl
@[simp] theorem State.sessionReset_errInfo (s : State) : s.sessionReset.errInfo = 0#32 := rfl
@[simp] theorem State.sessionReset_baddr (s : State) : s.sessionReset.baddr = 0#32 := rfl
@[simp] theorem State.sessionReset_blen (s : State) : s.sessionReset.blen = 0#32 := rfl
@[simp] theorem State.sessionReset_saddr (s : State) : s.sessionReset.saddr = 0#32 := rfl
@[simp] theorem State.sessionReset_slen (s : State) : s.sessionReset.slen = 0#32 := rfl
@[simp] theorem State.sessionReset_hdrCsize (s : State) : s.sessionReset.hdrCsize = 0#32 := rfl
@[simp] theorem State.sessionReset_hdrOsize (s : State) : s.sessionReset.hdrOsize = 0#32 := rfl
@[simp] theorem State.sessionReset_hdrCrc (s : State) : s.sessionReset.hdrCrc = 0#32 := rfl
@[simp] theorem State.sessionReset_hdrFlags (s : State) : s.sessionReset.hdrFlags = 0#1 := rfl
@[simp] theorem State.sessionReset_hdrAvail (s : State) : s.sessionReset.hdrAvail = 0#32 := rfl
@[simp] theorem State.sessionReset_crcValue (s : State) : s.sessionReset.crcValue = 0#32 := rfl
@[simp] theorem State.sessionReset_palCtrl (s : State) : s.sessionReset.palCtrl = s.palCtrl := rfl
@[simp] theorem State.sessionReset_palThresh (s : State) : s.sessionReset.palThresh = s.palThresh := rfl
@[simp] theorem State.sessionReset_palRgb (s : State) : s.sessionReset.palRgb = 0#24 := rfl
@[simp] theorem State.sessionReset_palSym (s : State) : s.sessionReset.palSym = 0#3 := rfl
@[simp] theorem State.sessionReset_palDist (s : State) : s.sessionReset.palDist = 0#32 := rfl
@[simp] theorem State.sessionReset_bb (s : State) : s.sessionReset.bb = s.bb := rfl
@[simp] theorem State.sessionReset_sb (s : State) : s.sessionReset.sb = s.sb := rfl
@[simp] theorem State.sessionReset_script (s : State) : s.sessionReset.script = s.script := rfl
@[simp] theorem State.sessionReset_replies (s : State) : s.sessionReset.replies = s.replies := rfl

/-! ### State.hardReset -/

@[simp] theorem State.hardReset_cfg (s : State) : s.hardReset.cfg = s.cfg := rfl
@[simp] theorem State.hardReset_err (s : State) : s.hardReset.err = 0#8 := rfl
@[simp] theorem State.hardReset_errInfo (s : State) : s.hardReset.errInfo = 0#32 := rfl
@[simp] theorem State.hardReset_baddr (s : State) : s.hardReset.baddr = 0#32 := rfl
@[simp] theorem State.hardReset_blen (s : State) : s.hardReset.blen = 0#32 := rfl
@[simp] theorem State.hardReset_saddr (s : State) : s.hardReset.saddr = 0#32 := rfl
@[simp] theorem State.hardReset_slen (s : State) : s.hardReset.slen = 0#32 := rfl
@[simp] theorem State.hardReset_hdrCsize (s : State) : s.hardReset.hdrCsize = 0#32 := rfl
@[simp] theorem State.hardReset_hdrOsize (s : State) : s.hardReset.hdrOsize = 0#32 := rfl
@[simp] theorem State.hardReset_hdrCrc (s : State) : s.hardReset.hdrCrc = 0#32 := rfl
@[simp] theorem State.hardReset_hdrFlags (s : State) : s.hardReset.hdrFlags = 0#1 := rfl
@[simp] theorem State.hardReset_hdrAvail (s : State) : s.hardReset.hdrAvail = 0#32 := rfl
@[simp] theorem State.hardReset_crcValue (s : State) : s.hardReset.crcValue = 0#32 := rfl
@[simp] theorem State.hardReset_palCtrl (s : State) : s.hardReset.palCtrl = 0#1 := rfl
@[simp] theorem State.hardReset_palThresh (s : State) : s.hardReset.palThresh = 0#32 := rfl
@[simp] theorem State.hardReset_palRgb (s : State) : s.hardReset.palRgb = 0#24 := rfl
@[simp] theorem State.hardReset_palSym (s : State) : s.hardReset.palSym = 0#3 := rfl
@[simp] theorem State.hardReset_palDist (s : State) : s.hardReset.palDist = 0#32 := rfl
@[simp] theorem State.hardReset_bb (s : State) : s.hardReset.bb = s.bb := rfl
@[simp] theorem State.hardReset_sb (s : State) : s.hardReset.sb = s.sb := rfl
@[simp] theorem State.hardReset_script (s : State) : s.hardReset.script = s.script := rfl
@[simp] theorem State.hardReset_replies (s : State) : s.hardReset.replies = s.replies := rfl

/-! ### State.writeReg: the fields no register write reaches -/

@[simp] theorem State.writeReg_cfg (s : State) (r : Reg) (w : Word) : (s.writeReg r w).cfg = s.cfg := by cases r <;> rfl
@[simp] theorem State.writeReg_err (s : State) (r : Reg) (w : Word) : (s.writeReg r w).err = s.err := by cases r <;> rfl
@[simp] theorem State.writeReg_errInfo (s : State) (r : Reg) (w : Word) : (s.writeReg r w).errInfo = s.errInfo := by cases r <;> rfl
@[simp] theorem State.writeReg_crcValue (s : State) (r : Reg) (w : Word) : (s.writeReg r w).crcValue = s.crcValue := by cases r <;> rfl
@[simp] theorem State.writeReg_palRgb (s : State) (r : Reg) (w : Word) : (s.writeReg r w).palRgb = s.palRgb := by cases r <;> rfl
@[simp] theorem State.writeReg_palSym (s : State) (r : Reg) (w : Word) : (s.writeReg r w).palSym = s.palSym := by cases r <;> rfl
@[simp] theorem State.writeReg_palDist (s : State) (r : Reg) (w : Word) : (s.writeReg r w).palDist = s.palDist := by cases r <;> rfl
@[simp] theorem State.writeReg_bb (s : State) (r : Reg) (w : Word) : (s.writeReg r w).bb = s.bb := by cases r <;> rfl
@[simp] theorem State.writeReg_sb (s : State) (r : Reg) (w : Word) : (s.writeReg r w).sb = s.sb := by cases r <;> rfl
@[simp] theorem State.writeReg_script (s : State) (r : Reg) (w : Word) : (s.writeReg r w).script = s.script := by cases r <;> rfl
@[simp] theorem State.writeReg_replies (s : State) (r : Reg) (w : Word) : (s.writeReg r w).replies = s.replies := by cases r <;> rfl

end Sys2Proof.Machine
end

