-- ==== Sys2Proof/Laws/Ops.lean ====
section
/-!
SUPPORT. One lemma per shared operation and per command body that says once everything it can do.
-/

namespace Sys2Proof.Machine

open Sys2Proof

/-! ### The latch -/

theorem State.faulted_iff (s : State) : s.faulted = true ↔ s.err ≠ 0#8 := by simp [State.faulted]

theorem State.faulted_eq_false_iff (s : State) : s.faulted = false ↔ s.err = 0#8 := by simp [State.faulted]

/-- The output line follows the latch. -/
theorem State.faultLine_iff (s : State) : s.faultLine = true ↔ s.err ≠ 0#8 := s.faulted_iff

theorem State.faultLine_eq_false_iff (s : State) : s.faultLine = false ↔ s.err = 0#8 := s.faulted_eq_false_iff

/-- Every fault code is nonzero: a raise always enters the faulted state. -/
theorem ErrKind.code_ne_zero (k : ErrKind) : k.code ≠ 0#8 := by cases k <;> decide

/-- A refused command changes nothing. -/
theorem issue_of_faulted {s : State} (body : State → Except FaultRecord State) (h : s.err ≠ 0#8) :
    issue body s = .next s := by rw [issue, if_pos ((State.faulted_iff s).mpr h)]

/-- A command whose body completes. -/
theorem issue_of_ok {body : State → Except FaultRecord State} {s t : State} (h : s.err = 0#8)
    (hb : body s = .ok t) : issue body s = .next t := by
  rw [issue, (State.faulted_eq_false_iff s).mpr h, hb]; rfl

/-- A command whose body raises. -/
theorem issue_of_error {body : State → Except FaultRecord State} {s : State} {f : FaultRecord} (h : s.err = 0#8)
    (hb : body s = .error f) : issue body s = .next (s.raise f) := by
  rw [issue, (State.faulted_eq_false_iff s).mpr h, hb]; rfl

/-- Everything running a command under the latch can do: refuse, complete or raise. -/
theorem issue_cases {body : State → Except FaultRecord State} {s t : State} (h : issue body s = .next t) :
    (s.err ≠ 0#8 ∧ t = s) ∨ (s.err = 0#8 ∧ body s = .ok t) ∨
      (s.err = 0#8 ∧ ∃ f, body s = .error f ∧ t = s.raise f) := by
  by_cases he : s.err = 0#8
  · cases hb : body s with
    | ok u =>
      rw [issue_of_ok he hb] at h
      obtain rfl : u = t := by injection h
      exact .inr (.inl ⟨he, rfl⟩)
    | error f =>
      rw [issue_of_error he hb] at h
      exact .inr (.inr ⟨he, f, rfl, by injection h with h; exact h.symm⟩)
  · rw [issue_of_faulted body he] at h
    exact .inl ⟨he, by injection h with h; exact h.symm⟩

/-! ### Operands -/

theorem rangeFits_iff (base : Word) (count : Nat) (size : Word) :
    rangeFits base count size = true ↔ base.toNat + count ≤ size.toNat := by simp [rangeFits]

theorem State.bytesFit_iff (s : State) (n : Nat) :
    s.bytesFit n = true ↔ s.baddr.toNat + n ≤ s.cfg.bbSize.toNat := rangeFits_iff ..

theorem State.symsFit_iff (s : State) (n : Nat) :
    s.symsFit n = true ↔ s.saddr.toNat + n ≤ s.cfg.sbSize.toNat := rangeFits_iff ..

/-- `nsym` in closed form. -/
theorem nsym_eq (len : Nat) : nsym len = (8 * len + 2) / 3 := by simp [nsym, ceilDiv]

/-- The symbols hold all the bits, with at most two pad bits. -/
theorem nsym_bounds (len : Nat) : 8 * len ≤ 3 * nsym len ∧ 3 * nsym len ≤ 8 * len + 2 := by
  rw [nsym_eq]; omega

@[simp] theorem State.storeBytes_eq (s : State) (l : List Byte) :
    s.storeBytes l = s.setBB (Memory.writeRange s.bb s.baddr.toNat l) := rfl

@[simp] theorem State.storeSyms_eq (s : State) (l : List Sym) :
    s.storeSyms l = s.setSB (Memory.writeRange s.sb s.saddr.toNat l) := rfl

@[simp] theorem State.bytesAt_length (s : State) (n : Nat) : (s.bytesAt n).length = n :=
  Memory.readRange_length ..

@[simp] theorem State.symsAt_length (s : State) (n : Nat) : (s.symsAt n).length = n :=
  Memory.readRange_length ..

@[simp] theorem headerBytes_length (h : Header) : (headerBytes h).length = 13 := rfl

@[simp] theorem pack_length (b : List Byte) : (pack b).length = nsym b.length := by simp [pack]

@[simp] theorem unpack_length (l : List Sym) (n : Nat) : (unpack l n).length = n := by simp [unpack]

/-! ### The command bodies: when each completes and with what, and every way it raises -/

theorem hdrEncBody_cases (s : State) :
    (s.baddr.toNat + 13 ≤ s.cfg.bbSize.toNat ∧
      hdrEncBody s = .ok (s.setBB (Memory.writeRange s.bb s.baddr.toNat (headerBytes s.header)))) ∨
    (s.cfg.bbSize.toNat < s.baddr.toNat + 13 ∧ hdrEncBody s = .error (operandRange 1)) := by
  by_cases h : s.bytesFit hdrLen = true
  · exact .inl ⟨(State.bytesFit_iff ..).mp h, by rw [hdrEncBody, if_pos h]; rfl⟩
  · exact .inr ⟨by rw [State.bytesFit_iff] at h; exact Nat.lt_of_not_le h, by rw [hdrEncBody, if_neg h]⟩

theorem hdrDecBody_cases (s : State) :
    (s.cfg.bbSize.toNat < s.baddr.toNat + s.blen.toNat ∧ hdrDecBody s = .error (operandRange 1)) ∨
    (s.baddr.toNat + s.blen.toNat ≤ s.cfg.bbSize.toNat ∧ s.blen.toNat < 13 ∧
      hdrDecBody s = .error (headerCorrupt 1)) ∨
    (s.baddr.toNat + s.blen.toNat ≤ s.cfg.bbSize.toNat ∧ 13 ≤ s.blen.toNat ∧
      hdrDecBody s = acceptHeader (parseHeader (s.bytesAt 13)) s) := by
  by_cases h : s.bytesFit s.blen.toNat = true
  · rw [hdrDecBody, if_pos h]
    by_cases hl : s.blen.toNat < hdrLen
    · exact .inr (.inl ⟨(State.bytesFit_iff ..).mp h, hl, if_pos hl⟩)
    · exact .inr (.inr ⟨(State.bytesFit_iff ..).mp h, Nat.le_of_not_lt hl, if_neg hl⟩)
  · exact .inl ⟨by rw [State.bytesFit_iff] at h; exact Nat.lt_of_not_le h, by rw [hdrDecBody, if_neg h]⟩

/-- Which sub-causes a header can be rejected for, the first that holds (R112, R228). -/
theorem headerFlaw_cases (h : Header) (avail : Word) :
    (h.flags.extractLsb' 1 7 ≠ 0#7 ∧ headerFlaw h avail = some 2) ∨
    (h.flags.extractLsb' 1 7 = 0#7 ∧ avail.toNat < nsym h.csize.toNat ∧ headerFlaw h avail = some 3) ∨
    (h.flags.extractLsb' 1 7 = 0#7 ∧ nsym h.csize.toNat ≤ avail.toNat ∧ h.flags.getLsbD 0 = false ∧
      h.csize ≠ h.osize ∧ headerFlaw h avail = some 4) ∨
    (h.flags.extractLsb' 1 7 = 0#7 ∧ nsym h.csize.toNat ≤ avail.toNat ∧
      (h.flags.getLsbD 0 = true ∨ h.csize = h.osize) ∧ headerFlaw h avail = none) := by
  unfold headerFlaw
  split_ifs with h2 h3 h4
  · exact .inl ⟨h2, rfl⟩
  · exact .inr (.inl ⟨not_not.mp h2, h3, rfl⟩)
  · exact .inr (.inr (.inl ⟨not_not.mp h2, Nat.le_of_not_lt h3, h4.1, h4.2, rfl⟩))
  · refine .inr (.inr (.inr ⟨not_not.mp h2, Nat.le_of_not_lt h3, ?_, rfl⟩))
    by_cases hf : h.flags.getLsbD 0 = true
    · exact .inl hf
    · exact .inr (not_not.mp fun hne => h4 ⟨by simpa using hf, hne⟩)

theorem bpPackBody_cases (s : State) :
    (s.cfg.bbSize.toNat < s.baddr.toNat + s.blen.toNat ∧ bpPackBody s = .error (operandRange 1)) ∨
    (s.baddr.toNat + s.blen.toNat ≤ s.cfg.bbSize.toNat ∧
      s.cfg.sbSize.toNat < s.saddr.toNat + nsym s.blen.toNat ∧ bpPackBody s = .error (operandRange 2)) ∨
    (s.baddr.toNat + s.blen.toNat ≤ s.cfg.bbSize.toNat ∧
      s.saddr.toNat + nsym s.blen.toNat ≤ s.cfg.sbSize.toNat ∧
      bpPackBody s = .ok ((s.setSB (Memory.writeRange s.sb s.saddr.toNat (pack (s.bytesAt s.blen.toNat)))).setSlen
        (BitVec.ofNat 32 (nsym s.blen.toNat)))) := by
  by_cases h : s.bytesFit s.blen.toNat = true
  · rw [bpPackBody, if_pos h]
    by_cases hs : s.symsFit (nsym s.blen.toNat) = true
    · exact .inr (.inr ⟨(State.bytesFit_iff ..).mp h, (State.symsFit_iff ..).mp hs, by rw [if_pos hs]; rfl⟩)
    · exact .inr (.inl ⟨(State.bytesFit_iff ..).mp h,
        by rw [State.symsFit_iff] at hs; exact Nat.lt_of_not_le hs, if_neg hs⟩)
  · exact .inl ⟨by rw [State.bytesFit_iff] at h; exact Nat.lt_of_not_le h, by rw [bpPackBody, if_neg h]⟩

theorem bpUnpackBody_cases (s : State) :
    (s.cfg.bbSize.toNat < s.baddr.toNat + s.blen.toNat ∧ bpUnpackBody s = .error (operandRange 1)) ∨
    (s.baddr.toNat + s.blen.toNat ≤ s.cfg.bbSize.toNat ∧
      s.cfg.sbSize.toNat < s.saddr.toNat + s.slen.toNat ∧ bpUnpackBody s = .error (operandRange 2)) ∨
    (s.baddr.toNat + s.blen.toNat ≤ s.cfg.bbSize.toNat ∧ s.saddr.toNat + s.slen.toNat ≤ s.cfg.sbSize.toNat ∧
      s.slen.toNat < nsym s.blen.toNat ∧ bpUnpackBody s = .error (operandRange 3)) ∨
    (s.baddr.toNat + s.blen.toNat ≤ s.cfg.bbSize.toNat ∧ s.saddr.toNat + s.slen.toNat ≤ s.cfg.sbSize.toNat ∧
      nsym s.blen.toNat ≤ s.slen.toNat ∧
      bpUnpackBody s = .ok (s.setBB (Memory.writeRange s.bb s.baddr.toNat
        (unpack (s.symsAt (nsym s.blen.toNat)) s.blen.toNat)))) := by
  by_cases h : s.bytesFit s.blen.toNat = true
  · rw [bpUnpackBody, if_pos h]
    by_cases hs : s.symsFit s.slen.toNat = true
    · rw [if_pos hs]
      by_cases hn : s.slen.toNat < nsym s.blen.toNat
      · exact .inr (.inr (.inl ⟨(State.bytesFit_iff ..).mp h, (State.symsFit_iff ..).mp hs, hn, if_pos hn⟩))
      · exact .inr (.inr (.inr ⟨(State.bytesFit_iff ..).mp h, (State.symsFit_iff ..).mp hs,
          Nat.le_of_not_lt hn, by rw [if_neg hn]; rfl⟩))
    · exact .inr (.inl ⟨(State.bytesFit_iff ..).mp h,
        by rw [State.symsFit_iff] at hs; exact Nat.lt_of_not_le hs, if_neg hs⟩)
  · exact .inl ⟨by rw [State.bytesFit_iff] at h; exact Nat.lt_of_not_le h, by rw [bpUnpackBody, if_neg h]⟩

theorem palC2sBody_cases (r g b : Byte) (s : State) :
    (s.palThresh.toNat < nearestDist s.palCtrl r g b ∧ palC2sBody r g b s = .error (unreadableCell r g b)) ∨
    (nearestDist s.palCtrl r g b ≤ s.palThresh.toNat ∧ palC2sBody r g b s =
      .ok (s.setPalMatch (nearestSym s.palCtrl r g b) (BitVec.ofNat 32 (nearestDist s.palCtrl r g b)))) := by
  unfold palC2sBody
  split_ifs with h
  · exact .inl ⟨h, rfl⟩
  · exact .inr ⟨Nat.le_of_not_lt h, rfl⟩

theorem crcCalcBody_cases (cont : BitVec 1) (s : State) :
    (s.cfg.bbSize.toNat < s.baddr.toNat + s.blen.toNat ∧ crcCalcBody cont s = .error (operandRange 1)) ∨
    (s.baddr.toNat + s.blen.toNat ≤ s.cfg.bbSize.toNat ∧ crcCalcBody cont s = .ok (s.setCrcValue
      (crc32Update (if cont = 1#1 then s.crcValue else 0#32) (s.bytesAt s.blen.toNat)))) := by
  by_cases h : s.bytesFit s.blen.toNat = true
  · exact .inr ⟨(State.bytesFit_iff ..).mp h, by rw [crcCalcBody, if_pos h]⟩
  · exact .inl ⟨by rw [State.bytesFit_iff] at h; exact Nat.lt_of_not_le h, by rw [crcCalcBody, if_neg h]⟩

theorem crcVerifyBody_cases (s : State) :
    (s.crcValue = s.hdrCrc ∧ crcVerifyBody s = .ok s) ∨
    (s.crcValue ≠ s.hdrCrc ∧ crcVerifyBody s = .error (checksumMismatch s.crcValue)) := by
  unfold crcVerifyBody
  split_ifs with h
  · exact .inl ⟨h, rfl⟩
  · exact .inr ⟨h, rfl⟩

end Sys2Proof.Machine
end

