-- ==== Sys2Proof/Laws/Exec.lean ====
section
/-!
SUPPORT. What issuing a command can do, once for all commands.
-/

namespace Sys2Proof.Machine

open Sys2Proof

/-- The pseudocode a command runs under the latch; `SRST`, the one command that does not, completes with the session
reset. -/
def commandBody : Instr → State → Except FaultRecord State
  | .hdrEnc => hdrEncBody
  | .hdrDec => hdrDecBody
  | .bpPack => bpPackBody
  | .bpUnpack => bpUnpackBody
  | .palS2c sym => palS2cBody sym
  | .palC2s r g b => palC2sBody r g b
  | .crcCalc cont => crcCalcBody cont
  | .crcVerify => crcVerifyBody
  | .srst => fun s => .ok s.sessionReset

/-- Every command but `SRST` runs under the latch. -/
theorem exec_eq_issue {i : Instr} (h : i ≠ .srst) (s : State) : exec i s = issue (commandBody i) s := by
  cases i <;> first | rfl | exact absurd rfl h

@[simp] theorem exec_srst (s : State) : exec .srst s = .next s.sessionReset := rfl

/-- Everything issuing a command can do: reset the session, refuse, complete or raise. -/
theorem exec_cases {i : Instr} {s t : State} (h : exec i s = .next t) :
    (i = .srst ∧ t = s.sessionReset) ∨ (i ≠ .srst ∧ s.err ≠ 0#8 ∧ t = s) ∨
      (i ≠ .srst ∧ s.err = 0#8 ∧ commandBody i s = .ok t) ∨
      (i ≠ .srst ∧ s.err = 0#8 ∧ ∃ f, commandBody i s = .error f ∧ t = s.raise f) := by
  by_cases hi : i = .srst
  · subst hi
    rw [exec_srst] at h
    injection h with h
    exact .inl ⟨rfl, h.symm⟩
  · rw [exec_eq_issue hi] at h
    rcases issue_cases h with ⟨he, ht⟩ | ⟨he, hb⟩ | ⟨he, hb⟩
    · exact .inr (.inl ⟨hi, he, ht⟩)
    · exact .inr (.inr (.inl ⟨hi, he, hb⟩))
    · exact .inr (.inr (.inr ⟨hi, he, hb⟩))

/-- What a completed `HDR.DEC` leaves: a header that passed the checks. -/
theorem acceptHeader_ok {h : Header} {s t : State} (hb : acceptHeader h s = .ok t) :
    headerFlaw h s.hdrAvail = none ∧ t = s.setHeader h.csize h.osize h.crc (h.flags.setWidth 1) := by
  unfold acceptHeader at hb
  cases hf : headerFlaw h s.hdrAvail with
  | none => rw [hf] at hb; injection hb with hb; exact ⟨rfl, hb.symm⟩
  | some c => rw [hf] at hb; injection hb

/-- How a header is rejected: `HeaderCorrupt` with sub-cause 2, 3 or 4. -/
theorem acceptHeader_error {h : Header} {s : State} {f : FaultRecord} (hb : acceptHeader h s = .error f) :
    ∃ c, (c = 2 ∨ c = 3 ∨ c = 4) ∧ headerFlaw h s.hdrAvail = some c ∧ f = headerCorrupt c := by
  unfold acceptHeader at hb
  cases hf : headerFlaw h s.hdrAvail with
  | none => rw [hf] at hb; injection hb
  | some c =>
    rw [hf] at hb
    injection hb with hb
    refine ⟨c, ?_, rfl, hb.symm⟩
    rcases headerFlaw_cases h s.hdrAvail with ⟨-, h'⟩ | ⟨-, -, h'⟩ | ⟨-, -, -, -, h'⟩ | ⟨-, -, -, h'⟩ <;>
      rw [hf] at h' <;> injection h' <;> simp_all

/-- What a completed command writes: one of the seven shapes. -/
theorem commandBody_ok {i : Instr} {s t : State} (hi : i ≠ .srst) (h : commandBody i s = .ok t) :
    (i = .hdrEnc ∧ s.baddr.toNat + 13 ≤ s.cfg.bbSize.toNat ∧
      t = s.setBB (Memory.writeRange s.bb s.baddr.toNat (headerBytes s.header))) ∨
    (i = .hdrDec ∧ ∃ cs os cr f, t = s.setHeader cs os cr f) ∨
    (i = .bpPack ∧ s.saddr.toNat + nsym s.blen.toNat ≤ s.cfg.sbSize.toNat ∧
      t = (s.setSB (Memory.writeRange s.sb s.saddr.toNat (pack (s.bytesAt s.blen.toNat)))).setSlen
        (BitVec.ofNat 32 (nsym s.blen.toNat))) ∨
    (i = .bpUnpack ∧ s.baddr.toNat + s.blen.toNat ≤ s.cfg.bbSize.toNat ∧
      t = s.setBB (Memory.writeRange s.bb s.baddr.toNat
        (unpack (s.symsAt (nsym s.blen.toNat)) s.blen.toNat))) ∨
    (∃ sym, i = .palS2c sym ∧ t = s.setPalRgb (palette sym)) ∨
    (∃ r g b, i = .palC2s r g b ∧ nearestDist s.palCtrl r g b ≤ s.palThresh.toNat ∧
      t = s.setPalMatch (nearestSym s.palCtrl r g b) (BitVec.ofNat 32 (nearestDist s.palCtrl r g b))) ∨
    (∃ cont, i = .crcCalc cont ∧ ∃ v, t = s.setCrcValue v) ∨
    (i = .crcVerify ∧ s.crcValue = s.hdrCrc ∧ t = s) := by
  cases i with
  | hdrEnc =>
    rcases hdrEncBody_cases s with ⟨hr, hb⟩ | ⟨-, hb⟩ <;> rw [show hdrEncBody s = _ from h] at hb <;> cases hb
    exact .inl ⟨rfl, hr, rfl⟩
  | hdrDec =>
    rcases hdrDecBody_cases s with ⟨-, hb⟩ | ⟨-, -, hb⟩ | ⟨-, -, hb⟩ <;> rw [show hdrDecBody s = _ from h] at hb
    · cases hb
    · cases hb
    · exact .inr (.inl ⟨rfl, _, _, _, _, (acceptHeader_ok hb.symm).2⟩)
  | bpPack =>
    rcases bpPackBody_cases s with ⟨-, hb⟩ | ⟨-, -, hb⟩ | ⟨-, hr, hb⟩ <;> rw [show bpPackBody s = _ from h] at hb <;> cases hb
    exact .inr (.inr (.inl ⟨rfl, hr, rfl⟩))
  | bpUnpack =>
    rcases bpUnpackBody_cases s with ⟨-, hb⟩ | ⟨-, -, hb⟩ | ⟨-, -, -, hb⟩ | ⟨hr, -, -, hb⟩ <;>
      rw [show bpUnpackBody s = _ from h] at hb <;> cases hb
    exact .inr (.inr (.inr (.inl ⟨rfl, hr, rfl⟩)))
  | palS2c sym =>
    cases h
    exact .inr (.inr (.inr (.inr (.inl ⟨sym, rfl, rfl⟩))))
  | palC2s r g b =>
    rcases palC2sBody_cases r g b s with ⟨-, hb⟩ | ⟨hr, hb⟩ <;> rw [show palC2sBody r g b s = _ from h] at hb <;> cases hb
    exact .inr (.inr (.inr (.inr (.inr (.inl ⟨r, g, b, rfl, hr, rfl⟩)))))
  | crcCalc cont =>
    rcases crcCalcBody_cases cont s with ⟨-, hb⟩ | ⟨-, hb⟩ <;> rw [show crcCalcBody cont s = _ from h] at hb <;> cases hb
    exact .inr (.inr (.inr (.inr (.inr (.inr (.inl ⟨cont, rfl, _, rfl⟩))))))
  | crcVerify =>
    rcases crcVerifyBody_cases s with ⟨hr, hb⟩ | ⟨-, hb⟩ <;> rw [show crcVerifyBody s = _ from h] at hb <;> cases hb
    exact .inr (.inr (.inr (.inr (.inr (.inr (.inr ⟨rfl, hr, rfl⟩))))))
  | srst => exact absurd rfl hi

/-- What a command can raise (R227-R232, R235). -/
theorem commandBody_error {i : Instr} {s : State} {f : FaultRecord} (h : commandBody i s = .error f) :
    (i = .hdrEnc ∧ f = operandRange 1) ∨
    (i = .hdrDec ∧ (f = operandRange 1 ∨ ∃ c, (c = 1 ∨ c = 2 ∨ c = 3 ∨ c = 4) ∧ f = headerCorrupt c)) ∨
    (i = .bpPack ∧ ∃ c, (c = 1 ∨ c = 2) ∧ f = operandRange c) ∨
    (i = .bpUnpack ∧ ∃ c, (c = 1 ∨ c = 2 ∨ c = 3) ∧ f = operandRange c) ∨
    (∃ r g b, i = .palC2s r g b ∧ f = unreadableCell r g b) ∨
    (∃ cont, i = .crcCalc cont ∧ f = operandRange 1) ∨
    (i = .crcVerify ∧ s.crcValue ≠ s.hdrCrc ∧ f = checksumMismatch s.crcValue) := by
  cases i with
  | hdrEnc =>
    rcases hdrEncBody_cases s with ⟨-, hb⟩ | ⟨-, hb⟩ <;> rw [show hdrEncBody s = _ from h] at hb <;> cases hb
    exact .inl ⟨rfl, rfl⟩
  | hdrDec =>
    rcases hdrDecBody_cases s with ⟨-, hb⟩ | ⟨-, -, hb⟩ | ⟨-, -, hb⟩ <;> rw [show hdrDecBody s = _ from h] at hb
    · cases hb; exact .inr (.inl ⟨rfl, .inl rfl⟩)
    · cases hb; exact .inr (.inl ⟨rfl, .inr ⟨1, .inl rfl, rfl⟩⟩)
    · obtain ⟨c, hc, -, hf⟩ := acceptHeader_error hb.symm
      exact .inr (.inl ⟨rfl, .inr ⟨c, .inr hc, hf⟩⟩)
  | bpPack =>
    rcases bpPackBody_cases s with ⟨-, hb⟩ | ⟨-, -, hb⟩ | ⟨-, -, hb⟩ <;> rw [show bpPackBody s = _ from h] at hb <;> cases hb
    · exact .inr (.inr (.inl ⟨rfl, 1, .inl rfl, rfl⟩))
    · exact .inr (.inr (.inl ⟨rfl, 2, .inr rfl, rfl⟩))
  | bpUnpack =>
    rcases bpUnpackBody_cases s with ⟨-, hb⟩ | ⟨-, -, hb⟩ | ⟨-, -, -, hb⟩ | ⟨-, -, -, hb⟩ <;>
      rw [show bpUnpackBody s = _ from h] at hb <;> cases hb
    · exact .inr (.inr (.inr (.inl ⟨rfl, 1, .inl rfl, rfl⟩)))
    · exact .inr (.inr (.inr (.inl ⟨rfl, 2, .inr (.inl rfl), rfl⟩)))
    · exact .inr (.inr (.inr (.inl ⟨rfl, 3, .inr (.inr rfl), rfl⟩)))
  | palS2c sym => injection h
  | palC2s r g b =>
    rcases palC2sBody_cases r g b s with ⟨-, hb⟩ | ⟨-, hb⟩ <;> rw [show palC2sBody r g b s = _ from h] at hb <;> cases hb
    exact .inr (.inr (.inr (.inr (.inl ⟨r, g, b, rfl, rfl⟩))))
  | crcCalc cont =>
    rcases crcCalcBody_cases cont s with ⟨-, hb⟩ | ⟨-, hb⟩ <;> rw [show crcCalcBody cont s = _ from h] at hb <;> cases hb
    exact .inr (.inr (.inr (.inr (.inr (.inl ⟨cont, rfl, rfl⟩)))))
  | crcVerify =>
    rcases crcVerifyBody_cases s with ⟨-, hb⟩ | ⟨hr, hb⟩ <;> rw [show crcVerifyBody s = _ from h] at hb <;> cases hb
    exact .inr (.inr (.inr (.inr (.inr (.inr ⟨rfl, hr, rfl⟩)))))
  | srst => injection h

end Sys2Proof.Machine
end

