-- ==== Sys2Proof/Laws/HostPort.lean ====
section
/-!
SUPPORT. What a host action can do, and the register map as a pair of inverse functions.
-/

namespace Sys2Proof.Machine

open Sys2Proof

/-! ### The register map -/

/-- The register at a register's offset is that register. -/
@[simp] theorem Reg.ofOffset_offset (r : Reg) : Reg.ofOffset (BitVec.ofNat 32 r.offset) = some r := by
  cases r <;> rfl

/-- A register found at an offset has that offset. -/
theorem Reg.offset_of_ofOffset {off : Word} {r : Reg} (h : Reg.ofOffset off = some r) : r.offset = off.toNat := by
  unfold Reg.ofOffset at h
  split at h <;> first | (injection h with h; subst h; simp [Reg.offset, *]) | injection h

/-- A register is found exactly at the aligned offsets up to 0x4C (R61). -/
theorem Reg.ofOffset_eq_none_iff (off : Word) :
    Reg.ofOffset off = none ↔ ¬(off.toNat % 4 = 0 ∧ off.toNat ≤ 0x4C) := by
  unfold Reg.ofOffset
  split <;> simp_all
  omega

/-- `CMD` is at offset 0 alone. -/
theorem Reg.ofOffset_eq_cmd_iff (off : Word) : Reg.ofOffset off = some .cmd ↔ off = 0#32 := by
  constructor
  · intro h
    have := Reg.offset_of_ofOffset h
    exact BitVec.eq_of_toNat_eq (by simpa [Reg.offset] using this.symm)
  · rintro rfl; rfl

/-- A register write does not touch the host's side. -/
theorem State.writeReg_setScript (s : State) (r : Reg) (w : Word) (l : List HostAction) :
    (s.setScript l).writeReg r w = (s.writeReg r w).setScript l := by cases r <;> rfl

theorem State.readReg_setScript (s : State) (r : Reg) (l : List HostAction) :
    (s.setScript l).readReg r = s.readReg r := by cases r <;> rfl

/-! ### The step -/

theorem step_nil {s : State} (h : s.script = []) : step s = .next s := by rw [step, hostStep, h]

theorem step_cons {s : State} {act : HostAction} {rest : List HostAction} (h : s.script = act :: rest) :
    step s = hostAction act (s.setScript rest) := by rw [step, hostStep, h]

/-- What presenting a word to `CMD` can do: run a command, raise `IllegalCommand`, or be refused. -/
theorem issueWord_cases {w : Word} {s t : State} (h : issueWord w s = .next t) :
    (∃ i, decode w = .ok i ∧ exec i s = .next t) ∨
    (∃ e, decode w = .error e ∧
      ((s.err ≠ 0#8 ∧ t = s) ∨ (s.err = 0#8 ∧ t = s.raise (illegalCommand w)))) := by
  unfold issueWord at h
  cases hd : decode w with
  | ok i => rw [hd] at h; exact .inl ⟨i, rfl, h⟩
  | error e =>
    rw [hd] at h
    rcases issue_cases h with ⟨he, ht⟩ | ⟨-, hb⟩ | ⟨he, f, hb, ht⟩
    · exact .inr ⟨e, rfl, .inl ⟨he, ht⟩⟩
    · injection hb
    · injection hb with hb
      exact .inr ⟨e, rfl, .inr ⟨he, by rw [ht, hb]⟩⟩

/-- An answered outcome is a next state with the reply added. -/
theorem withReply_next {r : Reply} {o : Host.Outcome State Fault Refusal} {t : State}
    (h : withReply r o = .next t) : ∃ u, o = .next u ∧ t = u.pushReply r := by
  cases o with
  | next u => injection h with h; exact ⟨u, rfl, h.symm⟩
  | fault f => injection h
  | refused x => injection h

/-- Everything a host action can do to the state: hard reset; an answer and nothing else; a register write; one cell
of a buffer written; or a word presented to `CMD`. -/
theorem hostAction_cases {act : HostAction} {s t : State} (h : hostAction act s = .next t) :
    (act = .hardReset ∧ t = s.hardReset) ∨
    (∃ r, t = s.pushReply r) ∨
    (∃ off w r, act = .access (.regWrite off w) ∧ r ≠ .cmd ∧ t = (s.writeReg r w).pushReply .ok) ∨
    (∃ a v, act = .access (.bbWrite a v) ∧ a.toNat < s.cfg.bbSize.toNat ∧
      t = (s.setBB (Memory.write s.bb a.toNat v)).pushReply .ok) ∨
    (∃ a v, act = .access (.sbWrite a v) ∧ a.toNat < s.cfg.sbSize.toNat ∧
      t = (s.setSB (Memory.write s.sb a.toNat v)).pushReply .ok) ∨
    (∃ w u, act = .access (.regWrite 0#32 w) ∧ issueWord w s = .next u ∧ t = u.pushReply .ok) := by
  cases act with
  | hardReset => injection h with h; exact .inl ⟨rfl, h.symm⟩
  | access a =>
    cases a with
    | regRead off => injection h with h; exact .inr (.inl ⟨_, h.symm⟩)
    | bbRead a => injection h with h; exact .inr (.inl ⟨_, h.symm⟩)
    | sbRead a => injection h with h; exact .inr (.inl ⟨_, h.symm⟩)
    | bbWrite a v =>
      injection h with h
      by_cases ha : a.toNat < s.cfg.bbSize.toNat
      · exact .inr (.inr (.inr (.inl ⟨a, v, rfl, ha, by rw [← h, State.bbWrite, if_pos ha]⟩)))
      · exact .inr (.inl ⟨.error, by rw [← h, State.bbWrite, if_neg ha]⟩)
    | sbWrite a v =>
      injection h with h
      by_cases ha : a.toNat < s.cfg.sbSize.toNat
      · exact .inr (.inr (.inr (.inr (.inl ⟨a, v, rfl, ha, by rw [← h, State.sbWrite, if_pos ha]⟩))))
      · exact .inr (.inl ⟨.error, by rw [← h, State.sbWrite, if_neg ha]⟩)
    | regWrite off w =>
      rw [hostAction, hostAccess, regWrite] at h
      cases hr : Reg.ofOffset off with
      | none => rw [hr] at h; injection h with h; exact .inr (.inl ⟨_, h.symm⟩)
      | some r =>
        rw [hr] at h
        by_cases hc : r = .cmd
        · subst hc
          obtain ⟨u, hu, ht⟩ := withReply_next ((if_pos rfl).symm.trans h)
          rw [Reg.ofOffset_eq_cmd_iff] at hr
          subst hr
          exact .inr (.inr (.inr (.inr (.inr ⟨w, u, rfl, hu, ht⟩))))
        · have ht : Host.Outcome.next ((s.writeReg r w).pushReply .ok) = .next t := (if_neg hc).symm.trans h
          injection ht with ht
          exact .inr (.inr (.inl ⟨off, w, r, rfl, hc, ht.symm⟩))

end Sys2Proof.Machine
end

