-- ==== Sys2Proof/Laws/PerInstr.lean ====
section
/-!
SUPPORT. The encoding of each command, as syntax (spec 30_encoding R91-R97): the word a command encodes to is
well-formed and selects that command's row of the opcode map.
-/

namespace Sys2Proof.Laws.Codec

open Sys2Proof

/-- The word of a command is well-formed (R92-R95) and selects the command's row (R96). -/
def Statement (i : Instr) : Prop :=
  wellFormedWord (encode i) = true ∧ selectsRow (encode i) i = true

theorem hdrEnc : Statement .hdrEnc := ⟨by decide, by decide⟩

theorem hdrDec : Statement .hdrDec := ⟨by decide, by decide⟩

theorem bpPack : Statement .bpPack := ⟨by decide, by decide⟩

theorem bpUnpack : Statement .bpUnpack := ⟨by decide, by decide⟩

theorem palS2c (sym : Sym) : Statement (.palS2c sym) :=
  ⟨by revert sym; decide, by revert sym; decide⟩

theorem palC2s (r g b : Byte) : Statement (.palC2s r g b) := by
  have hop : (encode (.palC2s r g b)).extractLsb' 24 8 = 0x06#8 := BitVec.extractLsb'_append_eq_left
  refine ⟨?_, ?_⟩
  · simp only [wellFormedWord, hop]
    exact beq_iff_eq.mpr (BitVec.and_zero)
  · have hmask : (0xFF000000#32 : Word) = 0xFF#8 ++ 0#24 := by decide
    rw [selectsRow, tableRow, encode, beq_iff_eq, hmask, BitVec.and_append, BitVec.and_zero]
    decide

theorem crcCalc (cont : BitVec 1) : Statement (.crcCalc cont) :=
  ⟨by revert cont; decide, by revert cont; decide⟩

theorem crcVerify : Statement .crcVerify := ⟨by decide, by decide⟩

theorem srst : Statement .srst := ⟨by decide, by decide⟩

end Sys2Proof.Laws.Codec
end

