-- ==== Sys2Proof/Tests/Slice0.lean ====
section
/-!
SUPPORT. The model's own tests, and for every statement with hypotheses a named witness that meets them. Expected
values come from the spec: its encodings (30 R91-R97) and its vectors (95), named in each comment.
-/

namespace Sys2Proof.Tests

open Sys2Proof Sys2Proof.Machine Sys2Proof.Claims

/-! ### Helpers -/

/-- The next state an outcome answers, or `d`. -/
def after (o : Host.Outcome State Fault Refusal) (d : State) : State :=
  match o with
  | .next t => t
  | .fault _ => d
  | .refused _ => d

/-- The state after the command `i`. -/
def run (i : Instr) (s : State) : State := after (exec i s) s

/-- The state after one host access. -/
def port (a : HostAccess) (s : State) : State := after (step (next s (.access a) [])) s

/-- The bytes placed in `BB` from address `a`. -/
def withBytes (a : Nat) (l : List Byte) (s : State) : State := s.setBB (Memory.writeRange s.bb a l)

/-- The symbols placed in `SB` from address `a`. -/
def withSyms (a : Nat) (l : List Sym) (s : State) : State := s.setSB (Memory.writeRange s.sb a l)

/-- The header bytes of vector D1 (95 V-HDR-D). -/
def headerD1 : List Byte :=
  [0x00#8, 0x00#8, 0x00#8, 0x03#8, 0x00#8, 0x00#8, 0x00#8, 0x03#8, 0x81#8, 0xDD#8, 0xA7#8, 0x40#8, 0x00#8]

/-- The header bytes of vector E3 (95 V-HDR-E). -/
def headerE3 : List Byte :=
  [0x01#8, 0x02#8, 0x03#8, 0x04#8, 0x0A#8, 0x0B#8, 0x0C#8, 0x0D#8, 0xCB#8, 0xF4#8, 0x39#8, 0x26#8, 0x01#8]

/-- Start of vector E3, at the last address that fits. -/
def encE3 : State :=
  { State.reset with hdrCsize := 0x01020304#32, hdrOsize := 0x0A0B0C0D#32, hdrCrc := 0xCBF43926#32, hdrFlags := 1#1,
                     baddr := 51#32 }

/-- Start of vector D2 (HDR_AVAIL exactly `nsym(3)`), with the bytes of D1 at the last address that fits. -/
def decD2 : State :=
  withBytes 51 headerD1 { State.reset with baddr := 51#32, blen := 13#32, hdrAvail := 8#32 }

/-- Start of vector PK25: one byte 0xFF at 63, three symbols at 125. -/
def pk25 : State := withBytes 63 [0xFF#8] { State.reset with baddr := 63#32, blen := 1#32, saddr := 125#32 }

/-- Start of vector U1, placed as U25 is: the last ranges that fit. -/
def u25 : State :=
  withSyms 120 [0#3, 0#3, 1#3, 7#3, 7#3, 6#3, 0#3, 0#3]
    { State.reset with baddr := 61#32, blen := 3#32, saddr := 120#32, slen := 8#32 }

/-- Start of vectors C14: Scenario B's payload at 0. -/
def crcC14 : State := withBytes 0 [0x00#8, 0xFF#8, 0x80#8] { State.reset with blen := 3#32 }

/-- The faulted state of R190's example. -/
def faulted : State := { State.reset with err := 0x02#8, errInfo := 0x71A4E845#32, crcValue := 0x71A4E845#32, palThresh := 64#32 }

/-! ### Well-formedness: an ill-formed word for each check (R92-R97) -/

theorem test_illformed_op_zero : wellFormedWord 0x00000000#32 = false := by decide
theorem test_illformed_op_above : wellFormedWord 0x0A000000#32 = false := by decide
theorem test_illformed_format_Z : wellFormedWord 0x01000001#32 = false := by decide
theorem test_illformed_format_Z_top : wellFormedWord 0x03800000#32 = false := by decide
theorem test_illformed_format_S : wellFormedWord 0x05000008#32 = false := by decide
theorem test_illformed_format_F : wellFormedWord 0x07000002#32 = false := by decide
theorem test_wellformed_format_C : wellFormedWord 0x06FFFFFF#32 = true := by decide

/-! ### Decoding: words written out bit by bit from the formats of R91 and the numbers of R96 -/

theorem test_decode_hdrEnc : decode 0b00000001_000000000000000000000000#32 = .ok .hdrEnc := by decide
theorem test_decode_hdrDec : decode 0b00000010_000000000000000000000000#32 = .ok .hdrDec := by decide
theorem test_decode_bpPack : decode 0b00000011_000000000000000000000000#32 = .ok .bpPack := by decide
theorem test_decode_bpUnpack : decode 0b00000100_000000000000000000000000#32 = .ok .bpUnpack := by decide
theorem test_decode_palS2c : decode 0b00000101_000000000000000000000_110#32 = .ok (.palS2c 6#3) := by decide
theorem test_decode_palC2s :
    decode 0b00000110_11111010_00001010_00000101#32 = .ok (.palC2s 250#8 10#8 5#8) := by decide
theorem test_decode_crcCalc : decode 0b00000111_00000000000000000000000_0#32 = .ok (.crcCalc 0#1) := by decide
theorem test_decode_crcCalc_cont : decode 0b00000111_00000000000000000000000_1#32 = .ok (.crcCalc 1#1) := by decide
theorem test_decode_crcVerify : decode 0b00001000_000000000000000000000000#32 = .ok .crcVerify := by decide
theorem test_decode_srst : decode 0b00001001_000000000000000000000000#32 = .ok .srst := by decide
/-- 95 V-ILL: an unassigned op and a reserved argument bit are refused by name. -/
theorem test_decode_refuses : decode 0xFF000000#32 = .error (.unassignedOp 0xFF#8) ∧
    decode 0x09000001#32 = .error (.reservedArgBits 0x09#8) := by decide
theorem test_decodeTableWord : decodeTableWord 32 0x06FA0A05 = some (.palC2s 250#8 10#8 5#8) := by decide

/-! ### One step of each command -/

/-- 95 V-HDR-E, E3 at BADDR = 51. -/
theorem test_hdrEnc_E3 : (run .hdrEnc encE3).bytesAt 13 = headerE3 := by decide
/-- 95 V-HDR-E: BADDR = 0xFFFFFFFF: the sum is not wrapped. -/
theorem test_hdrEnc_no_wrap : run .hdrEnc { encE3 with baddr := 0xFFFFFFFF#32 } =
    { encE3 with baddr := 0xFFFFFFFF#32, err := 0x81#8, errInfo := 1#32 } := by decide
/-- 95 V-HDR-D, D2: `nsym(3) = 8 <= 8`. -/
theorem test_hdrDec_D2 : ((run .hdrDec decD2).hdrCsize, (run .hdrDec decD2).hdrCrc, (run .hdrDec decD2).err) =
    (3#32, 0x81DDA740#32, 0#8) := by decide
/-- 95 V-HDR-D, D4: HDR_AVAIL = 7. -/
theorem test_hdrDec_D4 : run .hdrDec { decD2 with hdrAvail := 7#32 } =
    { decD2 with hdrAvail := 7#32, err := 0x01#8, errInfo := 3#32 } := by decide
/-- 95 V-BP-P, PK25. -/
theorem test_bpPack_PK25 : ((run .bpPack pk25).symsAt 3, (run .bpPack pk25).slen) = ([7#3, 7#3, 6#3], 3#32) := by
  decide
/-- 95 V-BP-P, PK26. -/
theorem test_bpPack_PK26 : run .bpPack { pk25 with saddr := 126#32 } =
    { pk25 with saddr := 126#32, err := 0x81#8, errInfo := 2#32 } := by decide
/-- 95 V-BP-U, U1 at U25's addresses. -/
theorem test_bpUnpack_U1 : (run .bpUnpack u25).bytesAt 3 = [0x00#8, 0xFF#8, 0x80#8] := by decide
/-- 95 V-BP-U, U2: seven symbols for three bytes. -/
theorem test_bpUnpack_U2 : run .bpUnpack { u25 with slen := 7#32 } =
    { u25 with slen := 7#32, err := 0x81#8, errInfo := 3#32 } := by decide
/-- 95 V-PAL-S: 0x05000005 and 0x05000003. -/
theorem test_palS2c : ((run (.palS2c 5#3) State.reset).palRgb, (run (.palS2c 3#3) State.reset).palRgb) =
    (0xFF00FF#24, 0x0000FF#24) := by decide
/-- 95 V-PAL-C, threshold boundary: METRIC 1, 150 accepted. -/
theorem test_palC2s_boundary :
    run (.palC2s 250#8 10#8 5#8) { State.reset with palCtrl := 1#1, palThresh := 150#32 } =
      { State.reset with palCtrl := 1#1, palThresh := 150#32, palSym := 1#3, palDist := 150#32 } := by decide
/-- 95 V-PAL-C, threshold boundary: METRIC 0, 19 rejected. -/
theorem test_palC2s_rejects : run (.palC2s 250#8 10#8 5#8) { State.reset with palThresh := 19#32 } =
    { State.reset with palThresh := 19#32, err := 0x05#8, errInfo := 0x00FA0A05#32 } := by decide
/-- 95 V-CRC, C14. -/
theorem test_crcCalc_C14 : (run (.crcCalc 0#1) crcC14).crcValue = 0x81DDA740#32 := by
  decide +kernel
/-- 95 V-CRC, chaining step 2: CRC("1234") continued with "56789". -/
theorem test_crcCalc_cont : (run (.crcCalc 1#1) (withBytes 4 [0x35#8, 0x36#8, 0x37#8, 0x38#8, 0x39#8]
    { State.reset with baddr := 4#32, blen := 5#32, crcValue := 0x9BE3E0A3#32 })).crcValue = 0xCBF43926#32 := by
  decide +kernel
/-- 95 V-CRC, `CRC.VERIFY`: a computed CRC of 0 against 1. -/
theorem test_crcVerify : run .crcVerify { State.reset with hdrCrc := 1#32 } =
    { State.reset with hdrCrc := 1#32, err := 0x02#8 } := by decide
/-- R190's example. -/
theorem test_srst : run .srst faulted = { State.reset with palThresh := 64#32 } := by decide

/-! ### Host accesses (95 V-REG, V-ILL) and the step -/

theorem test_write_flags : (port (.regWrite 0x28#32 0xFFFFFFFF#32) State.reset).readReg .hdrFlags = 1#32 := by decide
theorem test_write_palCtrl : (port (.regWrite 0x34#32 0xFFFFFFFE#32) State.reset).readReg .palCtrl = 0#32 := by decide
theorem test_misaligned : (port (.regWrite 0x01#32 0x09000000#32) faulted).err = 0x02#8 ∧
    (port (.regWrite 0x01#32 0x09000000#32) faulted).replies = [.error] := by decide
theorem test_capBB : (port (.regRead 0x48#32) State.reset).replies = [.okWord 64#32] := by decide
theorem test_bb_edge : (port (.bbWrite 63#32 0xAB#8) State.reset).replies = [.ok] ∧
    (port (.bbWrite 64#32 0xAB#8) State.reset).replies = [.error] := by decide
theorem test_sb_read_back :
    (port (.sbRead 127#32) (port (.sbWrite 127#32 5#3) State.reset)).replies = [.okSym 5#3, .ok] := by decide
theorem test_illegal_word : ((port (.regWrite 0#32 0x05000008#32) State.reset).err,
    (port (.regWrite 0#32 0x05000008#32) State.reset).errInfo) = (0x80#8, 0x05000008#32) := by decide
/-- 95 P3, line 25: `SRST` with a nonzero argument is refused while faulted. -/
theorem test_refused : (port (.regWrite 0#32 0x09000001#32) faulted).err = 0x02#8 := by decide
/-- The step runs a command placed by `withFetchWord` as the first instruction after reset. -/
theorem test_withFetchWord : (after (step (State.reset.withFetchWord 32 0x05000007)) State.reset).palRgb =
    0xFFFFFF#24 := by decide

/-! ### Witnesses: states and operands that meet the hypotheses of each statement -/

theorem witness_EncodeInvertsDecode : decode 0x06FFFFFF#32 = .ok (.palC2s 255#8 255#8 255#8) := by decide

theorem witness_OpcodeRows : selectsRow 0x05000007#32 (.palS2c 0#3) = true ∧
    selectsRow 0x05000007#32 (.palS2c 7#3) = true := by decide

theorem witness_IllegalWords_low : (0x00FFFFFF#32).toNat < 0x01000000 := by decide
theorem witness_IllegalWords_high : 0x0A000000 ≤ (0x0A000000#32).toNat := by decide
theorem witness_IllegalWords_reserved : 0x01000000 ≤ (0x09000001#32).toNat ∧
    (0x09000001#32).toNat < 0x0A000000 ∧ wellFormedWord 0x09000001#32 = false := by decide

theorem witness_FormatOperandFields : (9 ∈ [0x01, 0x02, 0x03, 0x04, 0x08, 0x09] ∧ 0 < 1 ∧ 1 < 2 ^ 24) ∧
    7 < 8 ∧ (8 ≤ 8 ∧ 8 < 2 ^ 24) ∧ 1 < 2 ∧ (2 ≤ 2 ∧ 2 < 2 ^ 24) := by decide

theorem witness_HdrEnc_completes : encE3.err = 0#8 ∧ encE3.baddr.toNat + 13 ≤ encE3.cfg.bbSize.toNat := by decide
theorem witness_HdrEnc_range : ({ encE3 with baddr := 52#32 } : State).err = 0#8 ∧
    encE3.cfg.bbSize.toNat < ({ encE3 with baddr := 52#32 } : State).baddr.toNat + 13 := by decide

theorem witness_HdrDec_completes : decD2.err = 0#8 ∧
    decD2.baddr.toNat + decD2.blen.toNat ≤ decD2.cfg.bbSize.toNat ∧ 13 ≤ decD2.blen.toNat ∧
    (Memory.read decD2.bb (decD2.baddr.toNat + 12)).toNat ≤ 1 ∧
    (8 * (wordAt decD2.bb decD2.baddr.toNat).toNat + 2) / 3 ≤ decD2.hdrAvail.toNat ∧
    ((Memory.read decD2.bb (decD2.baddr.toNat + 12)).getLsbD 0 = true ∨
      wordAt decD2.bb decD2.baddr.toNat = wordAt decD2.bb (decD2.baddr.toNat + 4)) := by decide
/-- 95 V-HDR-D, D18. -/
theorem witness_HdrDec_range : decD2.cfg.bbSize.toNat < 52 + decD2.blen.toNat := by decide
/-- 95 V-HDR-D, D5. -/
theorem witness_HdrDec_short : 51 + 12 ≤ decD2.cfg.bbSize.toNat ∧ (12#32).toNat < 13 := by decide
/-- 95 V-HDR-D, D6: flags byte 02. -/
theorem witness_HdrDec_flags : 2 ≤ (Memory.read (withBytes 63 [0x02#8] decD2).bb 63).toNat := by decide
/-- 95 V-HDR-D, D4: HDR_AVAIL = 7 beside D1's bytes. -/
theorem witness_HdrDec_bound : (Memory.read decD2.bb 63).toNat ≤ 1 ∧
    (7#32).toNat < (8 * (wordAt decD2.bb 51).toNat + 2) / 3 := by decide
/-- 95 V-HDR-D, D9: originalSize 4. -/
theorem witness_HdrDec_sizes : Memory.read (withBytes 58 [0x04#8] decD2).bb 63 = 0x00#8 ∧
    (8 * (wordAt (withBytes 58 [0x04#8] decD2).bb 51).toNat + 2) / 3 ≤ decD2.hdrAvail.toNat ∧
    wordAt (withBytes 58 [0x04#8] decD2).bb 51 ≠ wordAt (withBytes 58 [0x04#8] decD2).bb 55 := by decide

/-- The state of an `HDR.DEC` after `HDR.ENC`: the encoded bytes, 13 of them available. -/
def decAfterE3 : State := { run .hdrEnc encE3 with blen := 13#32, hdrAvail := 45090827#32, hdrCsize := 0#32 }

theorem witness_HeaderRoundTrip : encE3.err = 0#8 ∧ encE3.baddr.toNat + 13 ≤ encE3.cfg.bbSize.toNat ∧
    decAfterE3.err = 0#8 ∧ decAfterE3.baddr = encE3.baddr ∧ 13 ≤ decAfterE3.blen.toNat ∧
    decAfterE3.baddr.toNat + decAfterE3.blen.toNat ≤ decAfterE3.cfg.bbSize.toNat ∧
    (∀ i, i < 13 → Memory.read decAfterE3.bb (encE3.baddr.toNat + i) =
      Memory.read (run .hdrEnc encE3).bb (encE3.baddr.toNat + i)) := by decide
theorem witness_HeaderRoundTrip_exec : exec .hdrEnc encE3 = .next (run .hdrEnc encE3) := rfl

theorem witness_AcceptedHeader_exec : exec .hdrDec decD2 = .next (run .hdrDec decD2) := rfl
theorem witness_AcceptedHeader : (run .hdrDec decD2).err = 0#8 ∧ u25.err = 0#8 ∧
    u25.blen = (run .hdrDec decD2).hdrCsize ∧ decD2.hdrAvail.toNat ≤ u25.slen.toNat ∧
    u25.baddr.toNat + u25.blen.toNat ≤ u25.cfg.bbSize.toNat ∧
    u25.saddr.toNat + u25.slen.toNat ≤ u25.cfg.sbSize.toNat := by decide

theorem witness_Pack_completes : pk25.err = 0#8 ∧ pk25.baddr.toNat + pk25.blen.toNat ≤ pk25.cfg.bbSize.toNat ∧
    pk25.saddr.toNat + (8 * pk25.blen.toNat + 2) / 3 ≤ pk25.cfg.sbSize.toNat := by decide
/-- 95 V-BP-P, PK29 and PK28: empty ranges past the end. -/
theorem witness_Pack_ranges : State.reset.cfg.bbSize.toNat < 65 + (0#32).toNat ∧
    (64 + (0#32).toNat ≤ State.reset.cfg.bbSize.toNat ∧
      State.reset.cfg.sbSize.toNat < 129 + (8 * (0#32).toNat + 2) / 3) := by decide

theorem witness_Unpack_completes : u25.err = 0#8 ∧ u25.baddr.toNat + u25.blen.toNat ≤ u25.cfg.bbSize.toNat ∧
    u25.saddr.toNat + u25.slen.toNat ≤ u25.cfg.sbSize.toNat ∧ (8 * u25.blen.toNat + 2) / 3 ≤ u25.slen.toNat := by
  decide
/-- 95 V-BP-U, U22, U21 and U24. -/
theorem witness_Unpack_ranges : u25.cfg.bbSize.toNat < 62 + u25.blen.toNat ∧
    u25.cfg.sbSize.toNat < 1 + (128#32).toNat ∧
    (121 + (7#32).toNat ≤ u25.cfg.sbSize.toNat ∧ (7#32).toNat < (8 * u25.blen.toNat + 2) / 3) := by decide

theorem witness_PackCount : 8 * [0xFF#8].length ≤ 8 ∧ 8 < 3 * (pack [0xFF#8]).length ∧
    2 < (pack [0xFF#8]).length := by decide

/-- The state of a `BP.UNPACK` of what PK25 packed. -/
def unpackAfterPk25 : State := { run .bpPack pk25 with baddr := 0#32 }

theorem witness_PackThenUnpack_exec : exec .bpPack pk25 = .next (run .bpPack pk25) := rfl
theorem witness_PackThenUnpack : pk25.err = 0#8 ∧ (run .bpPack pk25).err = 0#8 ∧ unpackAfterPk25.err = 0#8 ∧
    unpackAfterPk25.saddr = pk25.saddr ∧ unpackAfterPk25.blen = pk25.blen ∧
    (run .bpPack pk25).slen.toNat ≤ unpackAfterPk25.slen.toNat ∧
    unpackAfterPk25.saddr.toNat + unpackAfterPk25.slen.toNat ≤ unpackAfterPk25.cfg.sbSize.toNat ∧
    unpackAfterPk25.baddr.toNat + unpackAfterPk25.blen.toNat ≤ unpackAfterPk25.cfg.bbSize.toNat ∧
    (∀ j, j < (run .bpPack pk25).slen.toNat → Memory.read unpackAfterPk25.sb (pk25.saddr.toNat + j) =
      Memory.read (run .bpPack pk25).sb (pk25.saddr.toNat + j)) := by decide

/-- 95 V-BP-U, U4. -/
theorem witness_PackInvertsUnpack : 1 ≤ 2 ∧ [5#3, 1#3, 2#3, 3#3, 6#3, 3#3].length = (8 * 2 + 2) / 3 := by decide

/-- 95 V-BP-U, U4: other pad bits in the last symbol. -/
theorem witness_UnpackIgnores : ∀ k, k < 8 * 2 →
    symsBit (withSyms 0 [5#3, 1#3, 2#3, 3#3, 6#3, 3#3] State.reset).sb 0 k =
      symsBit (withSyms 0 [5#3, 1#3, 2#3, 3#3, 6#3, 0#3] State.reset).sb 0 k := by decide
theorem witness_UnpackIgnores_exec : exec .bpUnpack u25 = .next (run .bpUnpack u25) := rfl

theorem witness_PackConcatenates : [0x31#8, 0x32#8, 0x33#8].length % 3 = 0 := by decide

theorem witness_S2c : State.reset.err = 0#8 := by decide

theorem witness_C2s_completes : State.reset.err = 0#8 ∧
    ∃ i, dist 0#1 250#8 10#8 5#8 i ≤ (20#32).toNat := by decide
theorem witness_C2s_rejects : ∀ i, (19#32).toNat < dist 0#1 250#8 10#8 5#8 i := by decide

/-- The state of a classification with threshold 20. -/
def noisy : State := { State.reset with palThresh := 20#32 }

theorem witness_Threshold_exec : exec (.palC2s 250#8 10#8 5#8) noisy = .next (run (.palC2s 250#8 10#8 5#8) noisy) := rfl
theorem witness_Threshold : noisy.err = 0#8 ∧ (run (.palC2s 250#8 10#8 5#8) noisy).err = 0#8 ∧
    (if noisy.palCtrl = 0#1 then 381 else 48387) ≤ (381#32).toNat := by decide

theorem witness_NearestEntry : (2#3 : Sym) ≠ cornerSym 250#8 10#8 5#8 := by decide

theorem witness_PaletteRoundTrip : exec (.palS2c 4#3) State.reset = .next (run (.palS2c 4#3) State.reset) := rfl

theorem witness_CrcCalc : crcC14.err = 0#8 ∧ crcC14.baddr.toNat + crcC14.blen.toNat ≤ crcC14.cfg.bbSize.toNat := by
  decide
/-- 95 V-CRC, chaining step 6. -/
theorem witness_CrcCalc_range : crcC14.cfg.bbSize.toNat < 60 + (5#32).toNat := by decide

theorem witness_CrcChains_exec : exec (.crcCalc 0#1) crcC14 = .next (run (.crcCalc 0#1) crcC14) := rfl
theorem witness_CrcChains : (run (.crcCalc 0#1) crcC14).err = 0#8 ∧
    (run (.crcCalc 0#1) crcC14).baddr.toNat + (run (.crcCalc 0#1) crcC14).blen.toNat ≤
      (run (.crcCalc 0#1) crcC14).cfg.bbSize.toNat := by decide

theorem witness_CrcBursts : [0xFF#8, 0#8, 0#8, 1#8].length = [0#8, 0#8, 0#8, 0#8].length ∧
    [0xFF#8, 0#8, 0#8, 1#8].length ≤ 4 ∧ [0xFF#8, 0#8, 0#8, 1#8] ≠ [0#8, 0#8, 0#8, 0#8] := by decide

theorem witness_CrcVerify : (State.reset.err = 0#8 ∧ State.reset.crcValue = State.reset.hdrCrc) ∧
    State.reset.crcValue ≠ 1#32 := by decide

theorem witness_Srst_argument : 0 < 1 ∧ 1 < 2 ^ 24 := by decide

theorem witness_Refused : faulted.err ≠ 0#8 := by decide
theorem witness_Refused_others : (∀ w, HostAccess.regWrite 0x10#32 1#32 ≠ .regWrite 0#32 w) ∧
    HostAccess.regWrite 0x10#32 1#32 ≠ .regRead 0x04#32 ∧ HostAccess.regWrite 0x10#32 1#32 ≠ .regRead 0x08#32 := by
  simp
theorem witness_Refused_others_step :
    step (next { faulted with err := 0#8, errInfo := 0#32 } (.access (.regWrite 0x10#32 1#32)) []) =
      .next (port (.regWrite 0x10#32 1#32) { faulted with err := 0#8, errInfo := 0#32 }) := rfl

theorem witness_IllegalWord (i : Instr) : selectsRow 0x0A000000#32 i = false := by
  cases i <;> simp [selectsRow, tableRow]

/-- A raise: `CRC.VERIFY` with unequal CRCs. -/
theorem witness_FaultsArePrecise_exec : exec .crcVerify { State.reset with hdrCrc := 1#32 } =
    .next (run .crcVerify { State.reset with hdrCrc := 1#32 }) := rfl
theorem witness_FaultsArePrecise : (run .crcVerify { State.reset with hdrCrc := 1#32 }).err ≠ 0#8 := by decide

/-- R230 and R229: the information words are the observed colour and the computed CRC. -/
theorem witness_CommandsRaise_c2s : State.reset.err = 0#8 ∧
    (run (.palC2s 250#8 10#8 5#8) State.reset).err = 0x05#8 ∧
    (run (.palC2s 250#8 10#8 5#8) State.reset).errInfo = 0x00FA0A05#32 := by decide
theorem witness_CommandsRaise_verify :
    (run .crcVerify { State.reset with crcValue := 0xCBF43926#32 }).err = 0x02#8 ∧
    (run .crcVerify { State.reset with crcValue := 0xCBF43926#32 }).errInfo = 0xCBF43926#32 := by decide

/-- The line rises at a faulting command and falls at `SRST` and at hard reset (R233). -/
theorem witness_FaultLine_rises : State.reset.faultLine = false ∧
    (port (.regWrite 0#32 0#32) State.reset).faultLine = true := by decide
theorem witness_FaultLine_falls : faulted.faultLine = true ∧
    (port (.regWrite 0#32 0x09000000#32) faulted).faultLine = false ∧
    (after (step (next faulted .hardReset [])) faulted).faultLine = false := by decide

theorem witness_LatchHolds : HostAction.access (.regWrite 0#32 0x09000001#32) ≠ .hardReset ∧
    HostAction.access (.regWrite 0#32 0x09000001#32) ≠ .access (.regWrite 0#32 0x09000000#32) := by decide
theorem witness_LatchHolds_step : step (next faulted (.access (.regWrite 0#32 0x09000001#32)) []) =
    .next (port (.regWrite 0#32 0x09000001#32) faulted) := rfl

theorem witness_CommandFrames : Instr.bpPack ≠ .srst ∧ Instr.bpPack ≠ .hdrEnc ∧ Instr.bpPack ≠ .bpUnpack := by decide
theorem witness_CommandsStayInside : pk25.cfg.bbSize.toNat ≤ 64 ∧ pk25.cfg.sbSize.toNat ≤ 128 := by decide

theorem witness_StepRuns : decode 0x03000000#32 = .ok .bpPack := by decide
theorem witness_Idle : State.reset.script = [] := by decide

/-- The map's ends and two neighbours: `BADDR`, `BLEN`, `PAL_DIST`, `CAP_SB` (table of R48). -/
theorem witness_RegisterMap_reads (s : State) : (0x0C#32, s.baddr) ∈ mapReads s ∧ (0x10#32, s.blen) ∈ mapReads s ∧
    (0x44#32, s.palDist) ∈ mapReads s ∧ (0x4C#32, s.cfg.sbSize) ∈ mapReads s := by
  simp [mapReads]
theorem witness_RegisterMap_writes (s : State) (w : Word) : (0x04#32, s) ∈ mapWrites s w ∧
    (0x0C#32, { s with baddr := w }) ∈ mapWrites s w ∧ (0x4C#32, s) ∈ mapWrites s w := by
  simp [mapWrites]

theorem witness_RegisterAccess_invalid : ¬((0x50#32).toNat % 4 = 0 ∧ (0x50#32).toNat ≤ 0x4C) ∧
    ¬((0x02#32).toNat % 4 = 0 ∧ (0x02#32).toNat ≤ 0x4C) := by decide
theorem witness_RegisterAccess_valid : (0x4C#32).toNat % 4 = 0 ∧ (0x4C#32).toNat ≤ 0x4C := by decide
theorem witness_RegisterClasses : Reg.accessClass .hdrFlags = .RW ∧ Reg.accessClass .err = .RO ∧
    Reg.accessClass .cmd = .WO ∧ Reg.err ≠ .hdrFlags := by decide

theorem witness_ByteBuffer : (63#32).toNat < State.reset.cfg.bbSize.toNat ∧
    State.reset.cfg.bbSize.toNat ≤ (64#32).toNat := by decide
theorem witness_SymbolBuffer : (127#32).toNat < State.reset.cfg.sbSize.toNat ∧
    State.reset.cfg.sbSize.toNat ≤ (128#32).toNat := by decide

theorem witness_SizesNeverChange : step State.reset = .next State.reset := rfl

/-- A faulted state with bytes and symbols listed meets the invariant. -/
theorem witness_Invariant :
    (withSyms 5 [7#3] (withBytes 63 [0xFF#8] { faulted with palDist := 48387#32 })).Inv := by decide
theorem witness_Invariant_step : step (next faulted .hardReset []) = .next faulted.hardReset := rfl
theorem witness_ResetMeetsTheInvariant : BuffersOk pk25 := by decide

end Sys2Proof.Tests
end

section
/-!
PROOFS. The statements about the state: the register map and its access classes, the reset values, the frame over all
commands, the `fault` line, the sizes, and the invariant that every step keeps.
-/

namespace Sys2Proof.Machine

open Sys2Proof Sys2Proof.Claims

/-! ### Decoding: the facts the latch depends on -/

/-- A format Z word is a command exactly when its whole argument is zero (R92). -/
theorem decodeZ_eq_ok_iff {i j : Instr} {op : Byte} {arg : BitVec 24} :
    decodeZ i op arg = .ok j ↔ arg = 0#24 ∧ i = j := by
  unfold decodeZ
  split_ifs with h <;> simp [h]

theorem decodeS_ne_srst (op : Byte) (arg : BitVec 24) : decodeS op arg ≠ .ok .srst := by
  unfold decodeS
  split_ifs <;> simp

theorem decodeC_ne_srst (arg : BitVec 24) : decodeC arg ≠ .ok .srst := by simp [decodeC]

theorem decodeF_ne_srst (op : Byte) (arg : BitVec 24) : decodeF op arg ≠ .ok .srst := by
  unfold decodeF
  split_ifs <;> simp

/-- Only one word is the command `SRST` (R96). -/
theorem eq_of_decode_eq_srst {w : Word} (h : decode w = .ok .srst) : w = 0x09000000#32 := by
  unfold decode at h
  split at h
  case h_9 hop =>
    obtain ⟨harg, -⟩ := decodeZ_eq_ok_iff.mp h
    rw [← opField_append_argField w, harg, BitVec.eq_of_toNat_eq (y := 0x09#8) hop]
    rfl
  case h_5 => exact absurd h (decodeS_ne_srst _ _)
  case h_6 => exact absurd h (decodeC_ne_srst _)
  case h_7 => exact absurd h (decodeF_ne_srst _ _)
  case h_10 => injection h
  all_goals exact absurd (decodeZ_eq_ok_iff.mp h).2 (by decide)

/-- Masked bits that are zero are zero as a field, when the mask covers the field. -/
theorem extractLsb'_eq_zero_of_and {w lo n : Nat} {x m : BitVec w} (h : x &&& m = 0#w)
    (hm : m.extractLsb' lo n = BitVec.allOnes n) : x.extractLsb' lo n = 0#n := by
  have hx := congrArg (BitVec.extractLsb' lo n) h
  rwa [BitVec.extractLsb'_and, hm, BitVec.and_allOnes, BitVec.extractLsb'_zero] at hx

theorem decodeZ_of_argOk (i : Instr) (op : Byte) {arg : BitVec 24} (h : Format.Z.argOk arg = true) :
    decodeZ i op arg = .ok i :=
  if_pos (by simpa using extractLsb'_eq_zero_of_and (lo := 0) (n := 24) (beq_iff_eq.mp h) (by decide))

theorem decodeS_of_argOk (op : Byte) {arg : BitVec 24} (h : Format.S.argOk arg = true) :
    decodeS op arg = .ok (.palS2c (arg.extractLsb' 0 3)) :=
  if_pos (extractLsb'_eq_zero_of_and (beq_iff_eq.mp h) (by decide))

theorem decodeF_of_argOk (op : Byte) {arg : BitVec 24} (h : Format.F.argOk arg = true) :
    decodeF op arg = .ok (.crcCalc (arg.extractLsb' 0 1)) :=
  if_pos (extractLsb'_eq_zero_of_and (beq_iff_eq.mp h) (by decide))

/-- Well-formedness in the decoder's own fields (R91). -/
theorem exists_format_of_wellFormedWord {w : Word} (h : wellFormedWord w = true) :
    ∃ f, formatOfOp (opField w) = some f ∧ f.argOk (argField w) = true := by
  unfold wellFormedWord at h
  split at h
  · exact absurd h Bool.false_ne_true
  next f hf => exact ⟨f, hf, h⟩

/-- The decoder reads a command from every well-formed word (R92-R97). -/
theorem exists_decode_of_wellFormedWord {w : Word} (h : wellFormedWord w = true) : ∃ i, decode w = .ok i := by
  obtain ⟨f, hf, harg⟩ := exists_format_of_wellFormedWord h
  unfold formatOfOp at hf
  split at hf <;> rename_i hop <;> cases hf <;> simp only [decode, hop]
  case h_5.refl => exact ⟨_, decodeS_of_argOk _ harg⟩
  case h_6.refl => exact ⟨_, rfl⟩
  case h_7.refl => exact ⟨_, decodeF_of_argOk _ harg⟩
  all_goals exact ⟨_, decodeZ_of_argOk _ _ harg⟩

/-- A word the decoder refuses is illegal (R97). -/
theorem wellFormedWord_eq_false_of_decode_error {w : Word} {e : DecodeError} (h : decode w = .error e) :
    wellFormedWord w = false := by
  by_contra hw
  obtain ⟨i, hi⟩ := exists_decode_of_wellFormedWord (Bool.eq_true_of_not_eq_false hw)
  rw [h] at hi
  injection hi

end Sys2Proof.Machine
end

section
/-!
PROOFS. The nearest palette entry lies within the bound of R156.
-/

namespace Sys2Proof.Machine

open Sys2Proof

/-- The channel value of the palette, 0 or 255, that is nearer to an observed channel (R156). -/
def nearExtreme (x : Byte) : Byte := if x.toNat ≤ 127 then 0#8 else 255#8

theorem channelDist_nearExtreme_le (x : Byte) : channelDist x (nearExtreme x) ≤ 127 := by
  have hx := x.isLt
  unfold nearExtreme channelDist
  split_ifs with h
  · show x.toNat - 0 + (0 - x.toNat) ≤ 127; omega
  · show x.toNat - 255 + (255 - x.toNat) ≤ 127; omega

theorem nearExtreme_mem (x : Byte) : nearExtreme x ∈ [0#8, 255#8] := by
  unfold nearExtreme
  split_ifs <;> simp

/-- The palette holds every combination of the extreme channel values (R150). -/
theorem exists_palette_of_extremes :
    ∀ x ∈ [0#8, 255#8], ∀ y ∈ [0#8, 255#8], ∀ z ∈ [0#8, 255#8],
      ∃ i : Sym, redOf (palette i) = x ∧ greenOf (palette i) = y ∧ blueOf (palette i) = z := by decide

/-- The metric value is at most that of three channel distances of 127 where each is at most 127 (R152). -/
theorem metricValue_le_of_channels {metric : BitVec 1} {r g b : Byte} {i : Sym}
    (hr : channelDist r (redOf (palette i)) ≤ 127) (hg : channelDist g (greenOf (palette i)) ≤ 127)
    (hb : channelDist b (blueOf (palette i)) ≤ 127) : metricValue metric r g b i ≤ 48387 := by
  have hrr := Nat.mul_le_mul hr hr
  have hgg := Nat.mul_le_mul hg hg
  have hbb := Nat.mul_le_mul hb hb
  simp only [metricValue]
  split_ifs <;> omega

/-- `d[i]` is listed among `d[0] .. d[7]` (R155). -/
theorem metricValue_mem_metricValues (metric : BitVec 1) (r g b : Byte) (i : Sym) :
    metricValue metric r g b i ∈ metricValues metric r g b :=
  List.mem_map.mpr ⟨i.toNat, List.mem_range.mpr i.isLt, by rw [BitVec.ofNat_toNat, BitVec.setWidth_eq]⟩

/-- The least metric value is at most each of them (R153). -/
theorem nearestDist_le (metric : BitVec 1) (r g b : Byte) (i : Sym) :
    nearestDist metric r g b ≤ metricValue metric r g b i := by
  have hi := metricValue_mem_metricValues metric r g b i
  rw [nearestDist, List.foldl_min_eq_min (List.ne_nil_of_mem hi)]
  exact (Nat.min_le_right ..).trans (List.min_le_of_mem hi)

/-- No colour is farther from the palette than the bound of R156. -/
theorem nearestDist_le_bound (metric : BitVec 1) (r g b : Byte) : nearestDist metric r g b ≤ 48387 := by
  obtain ⟨i, hr, hg, hb⟩ := exists_palette_of_extremes _ (nearExtreme_mem r) _ (nearExtreme_mem g) _
    (nearExtreme_mem b)
  calc nearestDist metric r g b ≤ metricValue metric r g b i := nearestDist_le metric r g b i
    _ ≤ 48387 := metricValue_le_of_channels (hr ▸ channelDist_nearExtreme_le r)
      (hg ▸ channelDist_nearExtreme_le g) (hb ▸ channelDist_nearExtreme_le b)

end Sys2Proof.Machine
end

section
/-!
PROOFS. The registers: what each reads after a write, and what a host's register access answers (R23, R48, R61).
-/

namespace Sys2Proof.Machine

open Sys2Proof Sys2Proof.Claims

/-! ### The step on a named action -/

theorem step_next_hardReset (s : State) (rest : List HostAction) :
    step (next s .hardReset rest) = .next (s.hardReset.setScript rest) := rfl

/-- A register read is answered with the register and changes nothing (R61, R70). -/
theorem step_regRead {off : Word} {r : Reg} (hr : Reg.ofOffset off = some r) (s : State) (rest : List HostAction) :
    step (next s (.access (.regRead off)) rest) = .next (answered s rest (.okWord (s.readReg r))) := by
  rw [step_cons rfl, hostAction, hostAccess, State.regReadReply, hr]
  exact congrArg (fun v => Host.Outcome.next (answered s rest (.okWord v))) (s.readReg_setScript r rest)

/-- A write to a register other than `CMD` stores what the register takes (R61, R23). -/
theorem step_regWrite {off : Word} {r : Reg} (hr : Reg.ofOffset off = some r) (hc : r ≠ .cmd) (s : State) (w : Word)
    (rest : List HostAction) :
    step (next s (.access (.regWrite off w)) rest) = .next (answered (s.writeReg r w) rest .ok) := by
  rw [step_cons rfl, hostAction, hostAccess, regWrite, hr]
  exact (if_neg hc).trans
    (congrArg (fun t : State => Host.Outcome.next (t.pushReply .ok)) (s.writeReg_setScript r w rest))

/-- The write of `SRST` resets the session in every state of the latch (R190, R223). -/
theorem step_srstWrite (s : State) (rest : List HostAction) :
    step (next s (.access (.regWrite 0#32 0x09000000#32)) rest) = .next (answered s.sessionReset rest .ok) := rfl

/-! ### Reads and writes of registers -/

/-- A register that holds a field of `n` bits reads below `2 ^ n`: its *zero* range reads 0 (R23). -/
theorem toNat_setWidth_lt {n : Nat} (m : Nat) (x : BitVec n) : (x.setWidth m).toNat < 2 ^ n := by
  rw [BitVec.toNat_setWidth]
  exact Nat.lt_of_le_of_lt (Nat.mod_le ..) x.isLt

/-- The one implemented bit of a word, read back (R34, R37). -/
theorem setWidth_one_setWidth (w : Word) : (w.setWidth 1).setWidth 32 = w &&& 1#32 := by
  apply BitVec.eq_of_toNat_eq
  rw [BitVec.toNat_and, BitVec.toNat_setWidth, BitVec.toNat_setWidth, show (1#32).toNat = 1 from rfl,
    Nat.and_one_is_mod]
  omega

/-- An `RW` register reads what was written, outside its *zero* range (R23). -/
theorem State.readReg_writeReg_self (s : State) {r : Reg} (w : Word) (h : r.accessClass = .RW) :
    (s.writeReg r w).readReg r = if r = .hdrFlags ∨ r = .palCtrl then w &&& 1#32 else w := by
  cases r
  case hdrFlags => exact setWidth_one_setWidth w
  case palCtrl => exact setWidth_one_setWidth w
  all_goals first | rfl | exact absurd h (by decide)

/-- A register write changes no other register (R23). -/
theorem State.readReg_writeReg_of_ne (s : State) {r r' : Reg} (w : Word) (h : r' ≠ r) :
    (s.writeReg r w).readReg r' = s.readReg r' := by
  cases r <;> cases r' <;> first | rfl | exact absurd rfl h

/-- A write to an `RO` register is without effect (R23). -/
theorem State.writeReg_of_accessClass_RO (s : State) {r : Reg} (w : Word) (h : r.accessClass = .RO) :
    s.writeReg r w = s := by
  cases r <;> first | rfl | exact absurd h (by decide)

/-- `CMD` is the one `WO` register (R24). -/
theorem Reg.accessClass_eq_WO_iff (r : Reg) : r.accessClass = .WO ↔ r = .cmd := by
  cases r <;> decide

/-- After hard reset every register but the `CAP` constants reads 0 (R48, R250). -/
theorem State.readReg_hardReset (s : State) {r : Reg} (hb : r ≠ .capBB) (hs : r ≠ .capSB) :
    s.hardReset.readReg r = 0#32 := by
  cases r <;> first | rfl | contradiction

/-! ### The register map as a list over the registers -/

/-- The registers in the order of the table of R48. -/
def mapRegs : List Reg := registerMap.map (·.1)

theorem mapReads_eq (s : State) : mapReads s = mapRegs.map fun r => (BitVec.ofNat 32 r.offset, s.readReg r) := by
  simp only [mapReads, zero_append_eq_setWidth]
  rfl

theorem mapWrites_eq (s : State) (w : Word) :
    mapWrites s w = mapRegs.tail.map fun r => (BitVec.ofNat 32 r.offset, s.writeReg r w) := by
  simp only [mapWrites, ← setWidth_eq_extractLsb'_zero]
  rfl

/-- `CMD` stands first in the table and only there. -/
theorem ne_cmd_of_mem_mapRegs_tail : ∀ r ∈ mapRegs.tail, r ≠ .cmd := by decide

end Sys2Proof.Machine
end

section
/-!
PROOFS. What a command and a step leave unchanged.
-/

namespace Sys2Proof.Machine

open Sys2Proof Sys2Proof.Claims

/-- What a completed command other than `SRST` can write: results and buffers, and nothing of the latch, the operands,
the configuration or the host's side. -/
theorem commandBody_ok_frame {i : Instr} {s t : State} (hi : i ≠ .srst) (h : commandBody i s = .ok t) :
    t = { s with
      slen := t.slen, hdrCsize := t.hdrCsize, hdrOsize := t.hdrOsize, hdrCrc := t.hdrCrc, hdrFlags := t.hdrFlags
      crcValue := t.crcValue, palRgb := t.palRgb, palSym := t.palSym, palDist := t.palDist
      bb := t.bb, sb := t.sb } := by
  rcases commandBody_ok hi h with ⟨-, -, rfl⟩ | ⟨-, _, _, _, _, rfl⟩ | ⟨-, -, rfl⟩ | ⟨-, -, rfl⟩ | ⟨_, -, rfl⟩ |
    ⟨_, _, _, -, -, rfl⟩ | ⟨_, -, _, rfl⟩ | ⟨-, -, rfl⟩ <;> rfl

/-- What a command other than `SRST` can write, whether it is refused, completes or raises. -/
theorem exec_frame {i : Instr} {s t : State} (hi : i ≠ .srst) (h : exec i s = .next t) :
    t = { s with
      err := t.err, errInfo := t.errInfo
      slen := t.slen, hdrCsize := t.hdrCsize, hdrOsize := t.hdrOsize, hdrCrc := t.hdrCrc, hdrFlags := t.hdrFlags
      crcValue := t.crcValue, palRgb := t.palRgb, palSym := t.palSym, palDist := t.palDist
      bb := t.bb, sb := t.sb } := by
  rcases exec_cases h with ⟨h', -⟩ | ⟨-, -, rfl⟩ | ⟨-, -, hb⟩ | ⟨-, -, f, -, rfl⟩
  · exact absurd h' hi
  · rfl
  · have ht := commandBody_ok_frame hi hb
    rw [ht]
  · rfl

theorem exec_operands {i : Instr} {s t : State} (hi : i ≠ .srst) (h : exec i s = .next t) :
    t.baddr = s.baddr ∧ t.blen = s.blen ∧ t.saddr = s.saddr ∧ t.hdrAvail = s.hdrAvail := by
  rw [exec_frame hi h]
  exact ⟨rfl, rfl, rfl, rfl⟩

theorem exec_surroundings {i : Instr} {s t : State} (h : exec i s = .next t) :
    t.palCtrl = s.palCtrl ∧ t.palThresh = s.palThresh ∧ t.cfg = s.cfg ∧ t.script = s.script ∧
      t.replies = s.replies := by
  by_cases hi : i = .srst
  · subst hi
    cases h
    exact ⟨rfl, rfl, rfl, rfl, rfl⟩
  · rw [exec_frame hi h]
    exact ⟨rfl, rfl, rfl, rfl, rfl⟩

/-! ### The buffers' writers -/

theorem exec_bb {i : Instr} {s t : State} (he : i ≠ .hdrEnc) (hu : i ≠ .bpUnpack) (h : exec i s = .next t) :
    t.bb = s.bb := by
  rcases exec_cases h with ⟨-, rfl⟩ | ⟨-, -, rfl⟩ | ⟨hi, -, hb⟩ | ⟨-, -, f, -, rfl⟩
  case inr.inr.inl =>
    rcases commandBody_ok hi hb with ⟨h', -⟩ | ⟨-, _, _, _, _, rfl⟩ | ⟨-, -, rfl⟩ | ⟨h', -⟩ | ⟨_, -, rfl⟩ |
      ⟨_, _, _, -, -, rfl⟩ | ⟨_, -, _, rfl⟩ | ⟨-, -, rfl⟩
    case inl => exact absurd h' he
    case inr.inr.inr.inl => exact absurd h' hu
    all_goals rfl
  all_goals rfl

theorem exec_sb {i : Instr} {s t : State} (hp : i ≠ .bpPack) (h : exec i s = .next t) : t.sb = s.sb := by
  rcases exec_cases h with ⟨-, rfl⟩ | ⟨-, -, rfl⟩ | ⟨hi, -, hb⟩ | ⟨-, -, f, -, rfl⟩
  case inr.inr.inl =>
    rcases commandBody_ok hi hb with ⟨-, -, rfl⟩ | ⟨-, _, _, _, _, rfl⟩ | ⟨h', -⟩ | ⟨-, -, rfl⟩ | ⟨_, -, rfl⟩ |
      ⟨_, _, _, -, -, rfl⟩ | ⟨_, -, _, rfl⟩ | ⟨-, -, rfl⟩
    case inr.inr.inl => exact absurd h' hp
    all_goals rfl
  all_goals rfl

/-! ### The sizes -/

theorem issueWord_cfg {w : Word} {s t : State} (h : issueWord w s = .next t) : t.cfg = s.cfg := by
  rcases issueWord_cases h with ⟨i, -, hx⟩ | ⟨e, -, ⟨-, rfl⟩ | ⟨-, rfl⟩⟩
  · obtain ⟨-, -, hcfg, -⟩ := exec_surroundings hx
    exact hcfg
  · rfl
  · rfl

theorem step_cfg {s t : State} (h : step s = .next t) : t.cfg = s.cfg := by
  cases hs : s.script with
  | nil => rw [step_nil hs] at h; cases h; rfl
  | cons act rest =>
    rw [step_cons hs] at h
    rcases hostAction_cases h with ⟨-, rfl⟩ | ⟨_, rfl⟩ | ⟨_, w, r, -, -, rfl⟩ | ⟨_, v, -, -, rfl⟩ |
      ⟨_, v, -, -, rfl⟩ | ⟨_, u, -, hu, rfl⟩
    case inr.inr.inr.inr.inr => exact issueWord_cfg (s := s.setScript rest) (t := u) hu
    all_goals simp

end Sys2Proof.Machine
end

section
/-!
PROOFS. When the `fault` line rises and falls (R47, R233).
-/

namespace Sys2Proof.Machine

open Sys2Proof

/-- A host action that is no write to `CMD` leaves `ERR` as it was or, as a hard reset, clears it (R47, R222). -/
theorem hostAction_err {act : HostAction} {s t : State} (h : hostAction act s = .next t)
    (hc : ∀ w, act ≠ .access (.regWrite 0#32 w)) : t.err = s.err ∨ (act = .hardReset ∧ t.err = 0#8) := by
  rcases hostAction_cases h with ⟨ha, rfl⟩ | ⟨_, rfl⟩ | ⟨_, w, r, -, -, rfl⟩ | ⟨_, v, -, -, rfl⟩ |
    ⟨_, v, -, -, rfl⟩ | ⟨w, u, ha, -, -⟩
  case inl => exact .inr ⟨ha, rfl⟩
  case inr.inr.inr.inr.inr => exact absurd ha (hc w)
  all_goals exact .inl (by simp)

/-- The only word that takes the block out of the faulted state is `SRST`'s (R223, R190). -/
theorem eq_srst_of_issueWord_clears {w : Word} {s t : State} (h : issueWord w s = .next t) (hs : s.err ≠ 0#8)
    (ht : t.err = 0#8) : w = 0x09000000#32 := by
  rcases issueWord_cases h with ⟨i, hd, hx⟩ | ⟨_, -, ⟨-, rfl⟩ | ⟨he, -⟩⟩
  · rcases exec_cases hx with ⟨rfl, -⟩ | ⟨-, -, rfl⟩ | ⟨-, he, -⟩ | ⟨-, he, -⟩
    · exact eq_of_decode_eq_srst hd
    · exact absurd ht hs
    · exact absurd he hs
    · exact absurd he hs
  · exact absurd ht hs
  · exact absurd he hs

/-- The line rises only at a `CMD` write. -/
theorem cmdWrite_of_faultLine_rises {s t : State} {act : HostAction} (h : hostAction act s = .next t)
    (hs : s.err = 0#8) (ht : t.err ≠ 0#8) : ∃ w, act = .access (.regWrite 0#32 w) := by
  by_contra! hc
  rcases hostAction_err h hc with he | ⟨-, he⟩
  · exact ht (he.trans hs)
  · exact ht he

/-- The line falls only at hard reset and at the write of `SRST`. -/
theorem reset_of_faultLine_falls {s t : State} {act : HostAction} (h : hostAction act s = .next t)
    (hs : s.err ≠ 0#8) (ht : t.err = 0#8) :
    act = .hardReset ∨ act = .access (.regWrite 0#32 0x09000000#32) := by
  by_cases hc : ∃ w, act = .access (.regWrite 0#32 w)
  · obtain ⟨w, rfl⟩ := hc
    obtain ⟨u, hu, rfl⟩ := withReply_next (o := issueWord w s) h
    exact .inr (by rw [eq_srst_of_issueWord_clears hu hs ht])
  · rcases hostAction_err h (not_exists.mp hc) with he | ⟨ha, -⟩
    · exact absurd (he.symm.trans ht) hs
    · exact .inl ha

end Sys2Proof.Machine
end

section
/-!
PROOFS. The invariant of Safety.lean, part by part.
-/

namespace Sys2Proof.Machine

open Sys2Proof

/-! ### The latch -/

/-- A clean latch that is legal holds information 0. -/
theorem LatchOk.errInfo_eq_zero {s : State} (h : LatchOk s) (he : s.err = 0#8) : s.errInfo = 0#32 := by
  rcases h with ⟨-, h0⟩ | ⟨hk, -⟩ | ⟨hk, -⟩ | ⟨hk, -⟩ | ⟨hk, -⟩ | ⟨hk, -⟩
  · exact h0
  all_goals exact absurd (he.symm.trans hk) (by decide)

theorem latchOk_raise_operandRange (s : State) {c : Nat} (h1 : 1 ≤ c) (h3 : c ≤ 3) :
    LatchOk (s.raise (operandRange c)) := by
  have hc : (BitVec.ofNat 32 c).toNat = c := Nat.mod_eq_of_lt (by omega)
  exact .inr (.inr (.inr (.inr (.inr ⟨rfl, hc.symm ▸ h1, hc.symm ▸ h3⟩))))

theorem latchOk_raise_headerCorrupt (s : State) {c : Nat} (h1 : 1 ≤ c) (h4 : c ≤ 4) :
    LatchOk (s.raise (headerCorrupt c)) := by
  have hc : (BitVec.ofNat 32 c).toNat = c := Nat.mod_eq_of_lt (by omega)
  exact .inr (.inl ⟨rfl, hc.symm ▸ h1, hc.symm ▸ h4⟩)

theorem latchOk_raise_unreadableCell (s : State) (r g b : Byte) : LatchOk (s.raise (unreadableCell r g b)) := by
  refine .inr (.inr (.inr (.inl ⟨rfl, ?_⟩)))
  show (0#8 ++ (r ++ (g ++ b)) : Word).toNat < 2 ^ 24
  rw [zero_append_eq_setWidth]
  exact toNat_setWidth_lt ..

theorem latchOk_raise_checksumMismatch (s : State) : LatchOk (s.raise (checksumMismatch s.crcValue)) :=
  .inr (.inr (.inl ⟨rfl, rfl⟩))

theorem latchOk_raise_illegalCommand (s : State) {w : Word} (h : wellFormedWord w = false) :
    LatchOk (s.raise (illegalCommand w)) :=
  .inr (.inr (.inr (.inr (.inl ⟨rfl, h⟩))))

/-- Every fault a command raises is one the latch may hold (R227-R232). -/
theorem latchOk_raise_of_commandBody_error {i : Instr} {s : State} {f : FaultRecord}
    (h : commandBody i s = .error f) : LatchOk (s.raise f) := by
  rcases commandBody_error h with ⟨-, rfl⟩ | ⟨-, rfl | ⟨c, hc, rfl⟩⟩ | ⟨-, c, hc, rfl⟩ | ⟨-, c, hc, rfl⟩ |
    ⟨r, g, b, -, rfl⟩ | ⟨_, -, rfl⟩ | ⟨-, -, rfl⟩
  · exact latchOk_raise_operandRange s le_rfl (by decide)
  · exact latchOk_raise_operandRange s le_rfl (by decide)
  · exact latchOk_raise_headerCorrupt s (by omega) (by omega)
  · exact latchOk_raise_operandRange s (by omega) (by omega)
  · exact latchOk_raise_operandRange s (by omega) (by omega)
  · exact latchOk_raise_unreadableCell s r g b
  · exact latchOk_raise_operandRange s le_rfl (by decide)
  · exact latchOk_raise_checksumMismatch s

/-! ### A completed command -/

/-- A completed command leaves a clean latch as it was, so it may overwrite `CRC_VALUE`. -/
theorem latchOk_of_commandBody_ok {i : Instr} {s t : State} (hi : i ≠ .srst) (he : s.err = 0#8) (hs : LatchOk s)
    (h : commandBody i s = .ok t) : LatchOk t := by
  rw [commandBody_ok_frame hi h]
  exact .inl ⟨he, hs.errInfo_eq_zero he⟩

/-- A command that stores does so inside the buffer and keeps the canonical form (R72). -/
theorem buffersOk_of_commandBody_ok {i : Instr} {s t : State} (hi : i ≠ .srst) (hs : BuffersOk s)
    (h : commandBody i s = .ok t) : BuffersOk t := by
  obtain ⟨hbw, hbi, hsw, hsi⟩ := hs
  rcases commandBody_ok hi h with ⟨-, hr, rfl⟩ | ⟨-, _, _, _, _, rfl⟩ | ⟨-, hr, rfl⟩ | ⟨-, hr, rfl⟩ | ⟨_, -, rfl⟩ |
    ⟨_, _, _, -, -, rfl⟩ | ⟨_, -, _, rfl⟩ | ⟨-, -, rfl⟩
  · exact ⟨Memory.writeRange_wf _ _ hbw, Memory.writeRange_within _ hbi (by rwa [headerBytes_length]), hsw, hsi⟩
  · exact ⟨hbw, hbi, hsw, hsi⟩
  · exact ⟨hbw, hbi, Memory.writeRange_wf _ _ hsw,
      Memory.writeRange_within _ hsi (by rwa [pack_length, State.bytesAt_length])⟩
  · exact ⟨Memory.writeRange_wf _ _ hbw, Memory.writeRange_within _ hbi (by rwa [unpack_length]), hsw, hsi⟩
  all_goals exact ⟨hbw, hbi, hsw, hsi⟩

/-- `PAL_DIST` is written by a completed classification alone, with a metric value (R155, R156). -/
theorem resultsOk_of_commandBody_ok {i : Instr} {s t : State} (hi : i ≠ .srst) (hs : ResultsOk s)
    (h : commandBody i s = .ok t) : ResultsOk t := by
  rcases commandBody_ok hi h with ⟨-, -, rfl⟩ | ⟨-, _, _, _, _, rfl⟩ | ⟨-, -, rfl⟩ | ⟨-, -, rfl⟩ | ⟨_, -, rfl⟩ |
    ⟨r, g, b, -, -, rfl⟩ | ⟨_, -, _, rfl⟩ | ⟨-, -, rfl⟩
  case inr.inr.inr.inr.inr.inl =>
    show (BitVec.ofNat 32 (nearestDist s.palCtrl r g b)).toNat ≤ 48387
    exact (Nat.mod_le ..).trans (nearestDist_le_bound s.palCtrl r g b)
  all_goals exact hs

/-! ### The invariant -/

theorem State.sessionReset_inv {s : State} (h : BuffersOk s) : s.sessionReset.Inv :=
  ⟨h, .inl ⟨rfl, rfl⟩, Nat.zero_le _⟩

theorem State.hardReset_inv {s : State} (h : BuffersOk s) : s.hardReset.Inv :=
  ⟨h, .inl ⟨rfl, rfl⟩, Nat.zero_le _⟩

/-- A raise touches the latch alone. -/
theorem State.raise_inv {s : State} {f : FaultRecord} (h : s.Inv) (hf : LatchOk (s.raise f)) : (s.raise f).Inv := by
  obtain ⟨hbuf, -, hres⟩ := h
  exact ⟨hbuf, hf, hres⟩

/-- No register write reaches what the invariant speaks of. -/
theorem State.writeReg_inv {s : State} (r : Reg) (w : Word) (h : s.Inv) : (s.writeReg r w).Inv := by
  cases r <;> exact h

theorem State.setBB_write_inv {s : State} {a : Nat} (v : Byte) (h : s.Inv) (ha : a < s.cfg.bbSize.toNat) :
    (s.setBB (Memory.write s.bb a v)).Inv := by
  obtain ⟨⟨hbw, hbi, hsb⟩, hrest⟩ := h
  exact ⟨⟨Memory.write_wf a v hbw, Memory.write_within v hbi ha, hsb⟩, hrest⟩

theorem State.setSB_write_inv {s : State} {a : Nat} (v : Sym) (h : s.Inv) (ha : a < s.cfg.sbSize.toNat) :
    (s.setSB (Memory.write s.sb a v)).Inv := by
  obtain ⟨⟨hbw, hbi, hsw, hsi⟩, hrest⟩ := h
  exact ⟨⟨hbw, hbi, Memory.write_wf a v hsw, Memory.write_within v hsi ha⟩, hrest⟩

/-- Every command keeps the invariant, in every state of the latch. -/
theorem exec_inv {i : Instr} {s t : State} (hs : s.Inv) (h : exec i s = .next t) : t.Inv := by
  obtain ⟨hbuf, hlatch, hres⟩ := hs
  rcases exec_cases h with ⟨-, rfl⟩ | ⟨-, -, rfl⟩ | ⟨hi, he, hb⟩ | ⟨-, -, f, hb, rfl⟩
  · exact State.sessionReset_inv hbuf
  · exact ⟨hbuf, hlatch, hres⟩
  · exact ⟨buffersOk_of_commandBody_ok hi hbuf hb, latchOk_of_commandBody_ok hi he hlatch hb,
      resultsOk_of_commandBody_ok hi hres hb⟩
  · exact ⟨hbuf, latchOk_raise_of_commandBody_error hb, hres⟩

/-- Every word presented to `CMD`, legal or not, keeps the invariant. -/
theorem issueWord_inv {w : Word} {s t : State} (hs : s.Inv) (h : issueWord w s = .next t) : t.Inv := by
  rcases issueWord_cases h with ⟨i, -, hx⟩ | ⟨e, hd, ⟨-, rfl⟩ | ⟨-, rfl⟩⟩
  · exact exec_inv hs hx
  · exact hs
  · exact State.raise_inv hs (latchOk_raise_illegalCommand s (wellFormedWord_eq_false_of_decode_error hd))

/-- Every host action keeps the invariant. -/
theorem hostAction_inv {act : HostAction} {s t : State} (hs : s.Inv) (h : hostAction act s = .next t) : t.Inv := by
  rcases hostAction_cases h with ⟨-, rfl⟩ | ⟨_, rfl⟩ | ⟨_, w, r, -, -, rfl⟩ | ⟨_, v, -, ha, rfl⟩ |
    ⟨_, v, -, ha, rfl⟩ | ⟨_, u, -, hu, rfl⟩
  · obtain ⟨hbuf, -⟩ := hs
    exact State.hardReset_inv hbuf
  · exact hs
  · exact State.writeReg_inv r w hs
  · exact State.setBB_write_inv v hs ha
  · exact State.setSB_write_inv v hs ha
  · exact issueWord_inv (t := u) hs hu

end Sys2Proof.Machine
end

section
/-!
PROOFS. The statements about the state, settled.
-/

namespace Sys2Proof.Machine

open Sys2Proof Sys2Proof.Claims

/-- Settles O50: a step is idle or a host action, and every host action keeps each part of the invariant. -/
theorem everyStepKeepsTheInvariant : Obligations.EveryStepKeepsTheInvariant := by
  intro s t hs h
  cases hscript : s.script with
  | nil => rw [step_nil hscript] at h; cases h; exact hs
  | cons act rest =>
    rw [step_cons hscript] at h
    exact hostAction_inv (s := s.setScript rest) hs h

/-- Settles O40, from the frame of the commands and the two lists of buffer writers. -/
theorem commandFrames : Obligations.CommandFrames := by
  intro i s t h
  exact ⟨fun hi => exec_operands hi h, exec_surroundings h, fun he hu x => by rw [exec_bb he hu h],
    fun hp x => by rw [exec_sb hp h]⟩

/-- Settles O46: reads and writes through the step, then each access class. -/
theorem registerAccessClasses : Obligations.RegisterAccessClasses := by
  refine ⟨fun s r w rest => ⟨?_, fun hwo => ?_, fun hrw => ⟨?_, fun r' hne => ?_, ?_, ?_⟩, fun hro => ?_,
    fun hwo => ?_⟩, fun s => ⟨?_, ?_, ?_, ?_, ?_⟩⟩
  · exact step_regRead (Reg.ofOffset_offset r) s rest
  · exact step_regWrite (Reg.ofOffset_offset r) (mt (Reg.accessClass_eq_WO_iff r).mpr hwo) s w rest
  · exact s.readReg_writeReg_self w hrw
  · exact s.readReg_writeReg_of_ne w hne
  · exact s.writeReg_bb r w
  · exact s.writeReg_sb r w
  · exact s.writeReg_of_accessClass_RO w hro
  · rw [(Reg.accessClass_eq_WO_iff r).mp hwo]; rfl
  all_goals exact toNat_setWidth_lt ..

/-- Settles O49: no step writes the configuration, and the `CAP` registers read it. -/
theorem sizesNeverChange : Obligations.SizesNeverChange := by
  intro s t h
  have hcfg := step_cfg h
  exact ⟨hcfg, congrArg Config.bbSize hcfg, congrArg Config.sbSize hcfg⟩

/-- Settles O52: the table's rows are the registers in its order, each at its own offset. -/
theorem registerMapIsTheTable : Obligations.RegisterMapIsTheTable := by
  refine ⟨fun r => ?_, fun s rest p hp => ?_, fun s w rest p hp => ?_⟩
  · cases r <;> decide
  · rw [mapReads_eq] at hp
    obtain ⟨r, -, rfl⟩ := List.mem_map.mp hp
    exact step_regRead (Reg.ofOffset_offset r) s rest
  · rw [mapWrites_eq] at hp
    obtain ⟨r, hr, rfl⟩ := List.mem_map.mp hp
    exact step_regWrite (Reg.ofOffset_offset r) (ne_cmd_of_mem_mapRegs_tail r hr) s w rest

/-- Settles O53: the line follows `ERR`, which only a `CMD` write sets and only the two resets clear. -/
theorem faultLineFollowsTheLatch : Obligations.FaultLineFollowsTheLatch := by
  refine ⟨State.faultLine_iff, fun s f => ?_, fun s rest => ?_,
    fun s t act rest h => ⟨fun hs ht => ?_, fun hs ht => ?_⟩⟩
  · exact (s.raise f).faultLine_iff.mpr f.kind.code_ne_zero
  · exact ⟨_, _, step_srstWrite s rest, rfl, step_next_hardReset s rest, rfl⟩
  · exact cmdWrite_of_faultLine_rises (s := s.setScript rest) h (s.faultLine_eq_false_iff.mp hs)
      (t.faultLine_iff.mp ht)
  · exact reset_of_faultLine_falls (s := s.setScript rest) h (s.faultLine_iff.mp hs)
      (t.faultLine_eq_false_iff.mp ht)

/-- Settles O34, by what each register reads after a hard reset. -/
theorem hardResetValues : Obligations.HardResetValues := by
  intro s rest
  exact ⟨_, step_next_hardReset s rest, fun r hb hs => State.readReg_hardReset (s.setScript rest) hb hs,
    rfl, rfl, rfl, rfl, rfl, rfl, rfl⟩

/-- Settles O51: the latch and the results are cleared, the buffers kept. -/
theorem resetMeetsTheInvariant : Obligations.ResetMeetsTheInvariant :=
  ⟨by decide, fun _ => State.hardReset_inv⟩

end Sys2Proof.Machine
end

section
/-!
PROOFS. What each host access does and answers (spec 20_memory R61-R63), as rules of the step.
-/

namespace Sys2Proof.Machine

open Sys2Proof Sys2Proof.Claims

/-! ### The register space (R61) -/

/-- An offset at which a register is found is that register's own. -/
theorem Reg.eq_offset_of_ofOffset {off : Word} {r : Reg} (h : Reg.ofOffset off = some r) :
    off = BitVec.ofNat 32 r.offset := by
  rw [Reg.offset_of_ofOffset h, BitVec.ofNat_toNat, BitVec.setWidth_eq]

theorem step_regRead_invalid {off : Word} (hr : Reg.ofOffset off = none) (s : State) (rest : List HostAction) :
    step (next s (.access (.regRead off)) rest) = .next (answered s rest .error) := by
  rw [step_cons rfl, hostAction, hostAccess, State.regReadReply, hr]
  rfl

theorem step_regWrite_invalid {off : Word} (hr : Reg.ofOffset off = none) (s : State) (w : Word)
    (rest : List HostAction) :
    step (next s (.access (.regWrite off w)) rest) = .next (answered s rest .error) := by
  rw [step_cons rfl, hostAction, hostAccess, regWrite, hr]
  rfl

/-- A write to `CMD` issues the word and is answered OK (R24, R90). -/
theorem step_cmdWrite (s : State) (w : Word) (rest : List HostAction) :
    step (next s (.access (.regWrite 0#32 w)) rest) = withReply .ok (issueWord w (s.setScript rest)) := rfl

/-! ### The byte buffer (R62) -/

theorem step_bbRead_valid {s : State} {a : Word} (h : a.toNat < s.cfg.bbSize.toNat) (rest : List HostAction) :
    step (next s (.access (.bbRead a)) rest) = .next (answered s rest (.okByte (Memory.read s.bb a.toNat))) :=
  congrArg (fun r => Host.Outcome.next (answered s rest r)) (if_pos h)

theorem step_bbRead_invalid {s : State} {a : Word} (h : s.cfg.bbSize.toNat ≤ a.toNat) (rest : List HostAction) :
    step (next s (.access (.bbRead a)) rest) = .next (answered s rest .error) :=
  congrArg (fun r => Host.Outcome.next (answered s rest r)) (if_neg h.not_gt)

theorem step_bbWrite_valid {s : State} {a : Word} (h : a.toNat < s.cfg.bbSize.toNat) (v : Byte)
    (rest : List HostAction) :
    step (next s (.access (.bbWrite a v)) rest) =
      .next (answered (s.setBB (Memory.write s.bb a.toNat v)) rest .ok) :=
  congrArg Host.Outcome.next (if_pos h)

theorem step_bbWrite_invalid {s : State} {a : Word} (h : s.cfg.bbSize.toNat ≤ a.toNat) (v : Byte)
    (rest : List HostAction) :
    step (next s (.access (.bbWrite a v)) rest) = .next (answered s rest .error) :=
  congrArg Host.Outcome.next (if_neg h.not_gt)

/-! ### The symbol buffer (R63) -/

theorem step_sbRead_valid {s : State} {a : Word} (h : a.toNat < s.cfg.sbSize.toNat) (rest : List HostAction) :
    step (next s (.access (.sbRead a)) rest) = .next (answered s rest (.okSym (Memory.read s.sb a.toNat))) :=
  congrArg (fun r => Host.Outcome.next (answered s rest r)) (if_pos h)

theorem step_sbRead_invalid {s : State} {a : Word} (h : s.cfg.sbSize.toNat ≤ a.toNat) (rest : List HostAction) :
    step (next s (.access (.sbRead a)) rest) = .next (answered s rest .error) :=
  congrArg (fun r => Host.Outcome.next (answered s rest r)) (if_neg h.not_gt)

theorem step_sbWrite_valid {s : State} {a : Word} (h : a.toNat < s.cfg.sbSize.toNat) (v : Sym)
    (rest : List HostAction) :
    step (next s (.access (.sbWrite a v)) rest) =
      .next (answered (s.setSB (Memory.write s.sb a.toNat v)) rest .ok) :=
  congrArg Host.Outcome.next (if_pos h)

theorem step_sbWrite_invalid {s : State} {a : Word} (h : s.cfg.sbSize.toNat ≤ a.toNat) (v : Sym)
    (rest : List HostAction) :
    step (next s (.access (.sbWrite a v)) rest) = .next (answered s rest .error) :=
  congrArg Host.Outcome.next (if_neg h.not_gt)

end Sys2Proof.Machine
end

section
/-!
PROOFS. Accesses in the faulted state (R65, R223): a word at `CMD` is refused, and no other access depends on the
latch, reads of `ERR` and `ERR_INFO` aside.
-/

namespace Sys2Proof.Machine

open Sys2Proof

/-! ### Words at `CMD` -/

/-- Every word but `SRST`'s, legal or illegal, is refused (R223). -/
theorem issueWord_of_faulted {w : Word} {s : State} (hs : s.err ≠ 0#8) (hw : w ≠ 0x09000000#32) :
    issueWord w s = .next s := by
  unfold issueWord
  split
  next i hd =>
    have hi : i ≠ .srst := by
      rintro rfl
      exact hw (eq_of_decode_eq_srst hd)
    rw [exec_eq_issue hi, issue_of_faulted _ hs]
  next => exact issue_of_faulted _ hs

/-! ### The other accesses -/

/-- The state with another latch: `ERR` and `ERR_INFO` replaced, nothing else. -/
def State.setLatch (s : State) (err : BitVec 8) (errInfo : Word) : State := { s with err := err, errInfo := errInfo }

theorem State.readReg_setLatch (s : State) (e : BitVec 8) (info : Word) {r : Reg} (he : r ≠ .err)
    (hi : r ≠ .errInfo) : (s.setLatch e info).readReg r = s.readReg r := by
  cases r
  case err => exact absurd rfl he
  case errInfo => exact absurd rfl hi
  all_goals rfl

theorem State.writeReg_setLatch (s : State) (e : BitVec 8) (info : Word) (r : Reg) (w : Word) :
    (s.setLatch e info).writeReg r w = (s.writeReg r w).setLatch e info := by cases r <;> rfl

/-- The answer to a register read shows the latch at the offsets of `ERR` and `ERR_INFO` alone. -/
theorem State.regReadReply_setLatch (s : State) (e : BitVec 8) (info : Word) {off : Word} (he : off ≠ 0x04#32)
    (hi : off ≠ 0x08#32) : (s.setLatch e info).regReadReply off = s.regReadReply off := by
  unfold State.regReadReply
  split
  next r hr =>
    have hoff := Reg.eq_offset_of_ofOffset hr
    rw [s.readReg_setLatch e info (by rintro rfl; exact he hoff) (by rintro rfl; exact hi hoff)]
  next => rfl

/-- A register write that is no `CMD` write commutes with replacing the latch. -/
theorem regWrite_setLatch {off w : Word} {s t : State} (hoff : off ≠ 0#32) (e : BitVec 8) (info : Word)
    (h : regWrite off w s = .next t) : regWrite off w (s.setLatch e info) = .next (t.setLatch e info) := by
  unfold regWrite at h ⊢
  cases hr : Reg.ofOffset off with
  | none => rw [hr] at h; cases h; rfl
  | some r =>
    have hc : r ≠ .cmd := by
      rintro rfl
      exact hoff ((Reg.ofOffset_eq_cmd_iff off).mp hr)
    simp only [hr, if_neg hc] at h ⊢
    cases h
    rw [s.writeReg_setLatch e info r w]
    rfl

theorem State.bbWrite_setLatch (s : State) (e : BitVec 8) (info a : Word) (v : Byte) :
    (s.setLatch e info).bbWrite a v = (s.bbWrite a v).setLatch e info := by
  unfold State.bbWrite
  rw [apply_ite (State.setLatch · e info)]
  rfl

theorem State.sbWrite_setLatch (s : State) (e : BitVec 8) (info a : Word) (v : Sym) :
    (s.setLatch e info).sbWrite a v = (s.sbWrite a v).setLatch e info := by
  unfold State.sbWrite
  rw [apply_ite (State.setLatch · e info)]
  rfl

/-- An access that neither writes `CMD` nor reads the latch commutes with replacing the latch (R65). -/
theorem hostAccess_setLatch {a : HostAccess} {s t : State} (hc : ∀ w, a ≠ .regWrite 0#32 w)
    (he : a ≠ .regRead 0x04#32) (hi : a ≠ .regRead 0x08#32) (e : BitVec 8) (info : Word)
    (h : hostAccess a s = .next t) : hostAccess a (s.setLatch e info) = .next (t.setLatch e info) := by
  cases a with
  | regRead off =>
    cases h
    rw [hostAccess, s.regReadReply_setLatch e info (fun ho => he (ho ▸ rfl)) (fun ho => hi (ho ▸ rfl))]
    rfl
  | regWrite off w => exact regWrite_setLatch (fun ho => hc w (ho ▸ rfl)) e info h
  | bbRead a => cases h; rfl
  | bbWrite a v => cases h; exact congrArg Host.Outcome.next (s.bbWrite_setLatch e info a v)
  | sbRead a => cases h; rfl
  | sbWrite a v => cases h; exact congrArg Host.Outcome.next (s.sbWrite_setLatch e info a v)

end Sys2Proof.Machine
end

section
/-!
PROOFS. Where a command stores (R72).
-/

namespace Sys2Proof.Machine

open Sys2Proof

/-- A command leaves `BB` alone or stores a range that lies inside it. -/
theorem exec_bb_cases {i : Instr} {s t : State} (h : exec i s = .next t) :
    t.bb = s.bb ∨ ∃ l : List Byte, s.baddr.toNat + l.length ≤ s.cfg.bbSize.toNat ∧
      t.bb = Memory.writeRange s.bb s.baddr.toNat l := by
  rcases exec_cases h with ⟨-, rfl⟩ | ⟨-, -, rfl⟩ | ⟨hi, -, hb⟩ | ⟨-, -, f, -, rfl⟩
  case inr.inr.inl =>
    rcases commandBody_ok hi hb with ⟨-, hr, rfl⟩ | ⟨-, _, _, _, _, rfl⟩ | ⟨-, -, rfl⟩ | ⟨-, hr, rfl⟩ | ⟨_, -, rfl⟩ |
      ⟨_, _, _, -, -, rfl⟩ | ⟨_, -, _, rfl⟩ | ⟨-, -, rfl⟩
    case inl => exact .inr ⟨headerBytes s.header, by rwa [headerBytes_length], rfl⟩
    case inr.inr.inr.inl => exact .inr ⟨_, by rwa [unpack_length], rfl⟩
    all_goals exact .inl rfl
  all_goals exact .inl rfl

/-- A command leaves `SB` alone or stores a range that lies inside it. -/
theorem exec_sb_cases {i : Instr} {s t : State} (h : exec i s = .next t) :
    t.sb = s.sb ∨ ∃ l : List Sym, s.saddr.toNat + l.length ≤ s.cfg.sbSize.toNat ∧
      t.sb = Memory.writeRange s.sb s.saddr.toNat l := by
  rcases exec_cases h with ⟨-, rfl⟩ | ⟨-, -, rfl⟩ | ⟨hi, -, hb⟩ | ⟨-, -, f, -, rfl⟩
  case inr.inr.inl =>
    rcases commandBody_ok hi hb with ⟨-, -, rfl⟩ | ⟨-, _, _, _, _, rfl⟩ | ⟨-, hr, rfl⟩ | ⟨-, -, rfl⟩ | ⟨_, -, rfl⟩ |
      ⟨_, _, _, -, -, rfl⟩ | ⟨_, -, _, rfl⟩ | ⟨-, -, rfl⟩
    case inr.inr.inl => exact .inr ⟨_, by rwa [pack_length, State.bytesAt_length], rfl⟩
    all_goals exact .inl rfl
  all_goals exact .inl rfl

/-- A buffer left alone, or stored to inside its size, reads the same beyond its size. -/
theorem Memory.read_eq_of_size_le {w size a x : Nat} {m m' : List (Nat × BitVec w)}
    (h : m' = m ∨ ∃ l : List (BitVec w), a + l.length ≤ size ∧ m' = Memory.writeRange m a l) (hx : size ≤ x) :
    Memory.read m' x = Memory.read m x := by
  rcases h with rfl | ⟨l, hl, rfl⟩
  · rfl
  · exact Memory.read_writeRange_outside m l (.inr (hl.trans hx))

end Sys2Proof.Machine
end

section
/-!
PROOFS. The statements about the host's accesses to registers and buffers, settled.
-/

namespace Sys2Proof.Machine

open Sys2Proof Sys2Proof.Claims

/-- Settles O35: the refusal of words at `CMD`, and the other accesses commute with replacing the latch. -/
theorem refusedWhileFaulted : Obligations.RefusedWhileFaulted := by
  refine ⟨fun s w rest hs => ?_, fun s t a rest _ hc he hi h => ?_⟩
  · split_ifs with hw
    · rw [hw, step_srstWrite]
    · have hrefused : issueWord w (s.setScript rest) = .next (s.setScript rest) := issueWord_of_faulted hs hw
      rw [step_cmdWrite, hrefused]
      rfl
  · exact hostAccess_setLatch (s := (s.setScript rest).setLatch 0#8 0#32) hc he hi s.err s.errInfo h

/-- Settles O41: every store of a command lies inside its buffer. -/
theorem commandsStayInsideTheBuffers : Obligations.CommandsStayInsideTheBuffers := by
  intro i s t h
  exact ⟨fun x hx => Memory.read_eq_of_size_le (exec_bb_cases h) hx,
    fun x hx => Memory.read_eq_of_size_le (exec_sb_cases h) hx⟩

/-- Settles O45: an offset is valid exactly when the map has a register there. -/
theorem registerAccessValidity : Obligations.RegisterAccessValidity := by
  intro s off w rest
  refine ⟨fun hoff => ?_, fun hoff => ?_⟩
  · have hr := (Reg.ofOffset_eq_none_iff off).mpr hoff
    exact ⟨step_regRead_invalid hr s rest, step_regWrite_invalid hr s w rest⟩
  · obtain ⟨r, hr⟩ := Option.ne_none_iff_exists'.mp fun h => (Reg.ofOffset_eq_none_iff off).mp h hoff
    refine ⟨r, Reg.offset_of_ofOffset hr, step_regRead hr s rest, fun hc => step_regWrite hr hc s w rest, ?_⟩
    rintro rfl
    obtain rfl := (Reg.ofOffset_eq_cmd_iff off).mp hr
    exact step_cmdWrite s w rest

/-- Settles O47, from the four rules of byte-buffer accesses and the reads after a write. -/
theorem byteBufferAccess : Obligations.ByteBufferAccess := by
  intro s a v rest
  refine ⟨fun ha => ⟨step_bbRead_valid ha rest, _, step_bbWrite_valid ha v rest, ?_, fun x hx => ?_⟩,
    fun ha => ⟨step_bbRead_invalid ha rest, step_bbWrite_invalid ha v rest⟩⟩
  · exact Memory.read_write_self s.bb a.toNat v
  · exact Memory.read_write_of_ne s.bb v hx

/-- Settles O48, from the four rules of symbol-buffer accesses and the reads after a write. -/
theorem symbolBufferAccess : Obligations.SymbolBufferAccess := by
  intro s a v rest
  refine ⟨fun ha => ⟨step_sbRead_valid ha rest, _, step_sbWrite_valid ha v rest, ?_, fun x hx => ?_⟩,
    fun ha => ⟨step_sbRead_invalid ha rest, step_sbWrite_invalid ha v rest⟩⟩
  · exact Memory.read_write_self s.sb a.toNat v
  · exact Memory.read_write_of_ne s.sb v hx

end Sys2Proof.Machine
end

section
/-!
PROOFS. The encoding (spec 30_encoding R91-R97): decoding and encoding are inverse, a word selects a command's row
exactly when it is legal and has the command's `op`, and the decoder's two refusals.
-/

namespace Sys2Proof.Machine

open Sys2Proof

/-! ### The argument and its operand, format by format (R93-R95) -/

/-- A decoder that requires the high bits to be zero and reads an operand from the low ones accepts exactly the
arguments that hold an operand under zeros. -/
theorem decodeLow_eq_ok_iff {m n : Nat} {arg : BitVec (m + n)} {f : BitVec n → Instr} {e : DecodeError} {i : Instr} :
    (if arg.extractLsb' n m = 0#m then Except.ok (f (arg.extractLsb' 0 n)) else Except.error e) = .ok i ↔
      ∃ x : BitVec n, arg = 0#m ++ x ∧ i = f x := by
  constructor
  · intro h
    split_ifs at h with hz
    cases h
    exact ⟨_, by rw [← hz, BitVec.extractLsb'_append_extractLsb'], rfl⟩
  · rintro ⟨x, rfl, rfl⟩
    rw [BitVec.extractLsb'_append_eq_left, BitVec.extractLsb'_append_eq_right, if_pos rfl]

theorem decodeS_eq_ok_iff {i : Instr} {op : Byte} {arg : BitVec 24} :
    decodeS op arg = .ok i ↔ ∃ sym : Sym, arg = 0#21 ++ sym ∧ i = .palS2c sym :=
  decodeLow_eq_ok_iff (m := 21) (n := 3)

theorem decodeF_eq_ok_iff {i : Instr} {op : Byte} {arg : BitVec 24} :
    decodeF op arg = .ok i ↔ ∃ cont : BitVec 1, arg = 0#23 ++ cont ∧ i = .crcCalc cont :=
  decodeLow_eq_ok_iff (m := 23) (n := 1)

/-- Every colour is its three channels (R94). -/
theorem rgb_append_channels (c : Rgb) : c.extractLsb' 16 8 ++ (c.extractLsb' 8 8 ++ c.extractLsb' 0 8) = c := by
  apply BitVec.eq_of_toNat_eq
  have hc := c.isLt
  rw [toNat_rgb, toNat_field, toNat_field, toNat_field]; omega

theorem decodeC_eq_ok_iff {i : Instr} {arg : BitVec 24} :
    decodeC arg = .ok i ↔ ∃ r g b : Byte, arg = r ++ (g ++ b) ∧ i = .palC2s r g b := by
  constructor
  · intro h
    cases h
    exact ⟨_, _, _, (rgb_append_channels arg).symm, rfl⟩
  · rintro ⟨r, g, b, rfl, rfl⟩
    rw [decodeC, rgb_red, rgb_green, rgb_blue]

/-! ### Decoding and encoding are inverse -/

theorem decode_palS2c_append (arg : BitVec 24) : decode (0x05#8 ++ arg) = decodeS 0x05#8 arg := by
  rw [decode, opField_append 0x05#8 arg, argField_append 0x05#8 arg]; rfl

theorem decode_palC2s_append (arg : BitVec 24) : decode (0x06#8 ++ arg) = decodeC arg := by
  rw [decode, opField_append 0x06#8 arg, argField_append 0x06#8 arg]; rfl

theorem decode_crcCalc_append (arg : BitVec 24) : decode (0x07#8 ++ arg) = decodeF 0x07#8 arg := by
  rw [decode, opField_append 0x07#8 arg, argField_append 0x07#8 arg]; rfl

/-- The decoder reads back the word of every command: the operands come back from their fields. -/
theorem decode_encode (i : Instr) : decode (encode i) = .ok i := by
  cases i with
  | palS2c sym => exact (decode_palS2c_append _).trans (decodeS_eq_ok_iff.mpr ⟨sym, rfl, rfl⟩)
  | palC2s r g b => exact (decode_palC2s_append _).trans (decodeC_eq_ok_iff.mpr ⟨r, g, b, rfl, rfl⟩)
  | crcCalc cont => exact (decode_crcCalc_append _).trans (decodeF_eq_ok_iff.mpr ⟨cont, rfl, rfl⟩)
  | hdrEnc | hdrDec | bpPack | bpUnpack | crcVerify | srst => decide

/-- A word that decodes to a command is that command's word: `op` fixes the format, and the format the argument. -/
theorem encode_eq_of_decode {w : Word} {i : Instr} (h : decode w = .ok i) : encode i = w := by
  have op_eq {n : Nat} (hop : (opField w).toNat = n) : opField w = BitVec.ofNat 8 n := by
    rw [← hop, BitVec.ofNat_toNat, BitVec.setWidth_eq]
  unfold decode at h
  rw [← opField_append_argField w]
  split at h
  case h_10 => injection h
  all_goals
    rename_i hop
    rw [op_eq hop]
  case h_5 =>
    obtain ⟨sym, harg, rfl⟩ := decodeS_eq_ok_iff.mp h
    rw [harg]; rfl
  case h_6 =>
    obtain ⟨r, g, b, harg, rfl⟩ := decodeC_eq_ok_iff.mp h
    rw [harg]; rfl
  case h_7 =>
    obtain ⟨cont, harg, rfl⟩ := decodeF_eq_ok_iff.mp h
    rw [harg]; rfl
  all_goals
    obtain ⟨harg, rfl⟩ := decodeZ_eq_ok_iff.mp h
    rw [harg]; rfl

/-! ### Legal words -/

/-- The word of every command is well-formed and selects the command's row (R92-R96). -/
theorem codec_statement (i : Instr) : Laws.Codec.Statement i := by
  cases i with
  | hdrEnc => exact Laws.Codec.hdrEnc
  | hdrDec => exact Laws.Codec.hdrDec
  | bpPack => exact Laws.Codec.bpPack
  | bpUnpack => exact Laws.Codec.bpUnpack
  | palS2c sym => exact Laws.Codec.palS2c sym
  | palC2s r g b => exact Laws.Codec.palC2s r g b
  | crcCalc cont => exact Laws.Codec.crcCalc cont
  | crcVerify => exact Laws.Codec.crcVerify
  | srst => exact Laws.Codec.srst

theorem wellFormedWord_iff_exists_decode {w : Word} : wellFormedWord w = true ↔ ∃ i, decode w = .ok i := by
  refine ⟨exists_decode_of_wellFormedWord, fun ⟨i, hi⟩ => ?_⟩
  obtain ⟨hwf, -⟩ := codec_statement i
  rwa [encode_eq_of_decode hi] at hwf

/-- A word with an assigned `op` is well-formed exactly when its argument obeys the format. -/
theorem wellFormedWord_eq_argOk {w : Word} {f : Format} (h : formatOfOp (opField w) = some f) :
    wellFormedWord w = f.argOk (argField w) := by
  unfold wellFormedWord
  rw [show formatOfOp (w.extractLsb' 24 8) = some f from h]
  rfl

/-! ### The rows of the opcode map (R96) -/

/-- The row of a command: its `op` over zeros, and all of `op` over the must-be-zero bits of its format. -/
theorem tableRow_eq_format (i : Instr) : ∃ f, formatOfOp (opField (encode i)) = some f ∧
    tableRow i = (opField (encode i) ++ 0#24, 0xFF#8 ++ f.mustBeZero) := by
  cases i with
  | palS2c sym =>
    rw [show opField (encode (.palS2c sym)) = 0x05#8 from opField_append 0x05#8 _]
    exact ⟨.S, by decide, rfl⟩
  | palC2s r g b =>
    rw [show opField (encode (.palC2s r g b)) = 0x06#8 from opField_append 0x06#8 _]
    exact ⟨.C, by decide, rfl⟩
  | crcCalc cont =>
    rw [show opField (encode (.crcCalc cont)) = 0x07#8 from opField_append 0x07#8 _]
    exact ⟨.F, by decide, rfl⟩
  | hdrEnc | hdrDec | bpPack | bpUnpack | crcVerify | srst => exact ⟨.Z, by decide, by decide⟩

/-- The row depends on the command's `op` alone. -/
theorem tableRow_eq_of_op {i j : Instr} (h : opField (encode i) = opField (encode j)) : tableRow i = tableRow j := by
  obtain ⟨f, hf, hi⟩ := tableRow_eq_format i
  obtain ⟨g, hg, hj⟩ := tableRow_eq_format j
  rw [h, hg] at hf
  cases hf
  rw [hi, hj, h]

/-- A word under the mask of a format is its `op` over the must-be-zero bits of its argument. -/
theorem and_mask_eq (w : Word) (m : BitVec 24) : w &&& (0xFF#8 ++ m) = opField w ++ (argField w &&& m) := by
  conv_lhs => rw [← opField_append_argField w]
  rw [BitVec.and_append, show (0xFF#8 : Byte) = BitVec.allOnes 8 from rfl, BitVec.and_allOnes]

/-- A word selects a command's row exactly when it is legal and has the command's `op`. -/
theorem selectsRow_iff {w : Word} {i : Instr} :
    selectsRow w i = true ↔ opField w = opField (encode i) ∧ wellFormedWord w = true := by
  obtain ⟨f, hf, hrow⟩ := tableRow_eq_format i
  rw [selectsRow, hrow, beq_iff_eq, and_mask_eq]
  constructor
  · intro h
    have hop := congrArg opField h
    have harg := congrArg argField h
    rw [opField_append, opField_append] at hop
    rw [argField_append, argField_append] at harg
    rw [← hop] at hf
    exact ⟨hop, (wellFormedWord_eq_argOk hf).trans (beq_iff_eq.mpr harg)⟩
  · rintro ⟨hop, hwf⟩
    rw [← hop] at hf ⊢
    rw [wellFormedWord_eq_argOk hf] at hwf
    rw [beq_iff_eq.mp hwf]

theorem selectsRow_of_decode {w : Word} {i : Instr} (h : decode w = .ok i) : selectsRow w i = true := by
  obtain ⟨-, hrow⟩ := codec_statement i
  rwa [encode_eq_of_decode h] at hrow

theorem tableRow_eq_of_selectsRow {w : Word} {i j : Instr} (hi : selectsRow w i = true)
    (hj : selectsRow w j = true) : tableRow i = tableRow j := by
  obtain ⟨hopi, -⟩ := selectsRow_iff.mp hi
  obtain ⟨hopj, -⟩ := selectsRow_iff.mp hj
  exact tableRow_eq_of_op (hopi.symm.trans hopj)

/-! ### Illegal words (R97) -/

theorem opField_toNat (w : Word) : (opField w).toNat = w.toNat / 2 ^ 24 := by
  have hw := w.isLt
  rw [opField, toNat_field]; omega

theorem decode_eq_unassignedOp {w : Word} (h : (opField w).toNat = 0 ∨ 10 ≤ (opField w).toNat) :
    decode w = .error (.unassignedOp (opField w)) := by
  unfold decode
  split
  case h_10 => rfl
  all_goals omega

/-- A format's check refuses by one error. -/
theorem eq_of_ite_eq_error {c : Prop} [Decidable c] {i : Instr} {e e' : DecodeError}
    (h : (if c then Except.ok i else Except.error e) = .error e') : e' = e := by
  split_ifs at h
  injection h with h
  exact h.symm

/-- A refused word with an assigned `op` is refused for its argument. -/
theorem decode_error_of_assigned {w : Word} {e : DecodeError} (h0 : 1 ≤ (opField w).toNat)
    (h9 : (opField w).toNat ≤ 9) (h : decode w = .error e) : e = .reservedArgBits (opField w) := by
  unfold decode at h
  split at h
  case h_6 => injection h
  case h_10 => simp only [imp_false] at *; omega
  all_goals exact eq_of_ite_eq_error h

end Sys2Proof.Machine
end

section
/-!
PROOFS. Command words as numbers (R91-R95): the operand's width in each format, and the words of the commands with an
operand.
-/

namespace Sys2Proof.Machine

open Sys2Proof

/-- How many low bits of the argument a format reads as its operand (table of R91). -/
def operandWidth : Format → Nat
  | .Z => 0
  | .S => 3
  | .C => 24
  | .F => 1

/-- An argument that obeys its format is a number below the operand's range. -/
theorem toNat_lt_of_argOk {f : Format} {arg : BitVec 24} (h : f.argOk arg = true) :
    arg.toNat < 2 ^ operandWidth f := by
  have hmask : f.mustBeZero.extractLsb' (operandWidth f) (24 - operandWidth f) = BitVec.allOnes _ := by
    cases f <;> decide
  have hz := congrArg BitVec.toNat (extractLsb'_eq_zero_of_and (beq_iff_eq.mp h) hmask)
  have harg := arg.isLt
  rw [toNat_field, BitVec.toNat_zero] at hz
  cases f <;> simp only [operandWidth] at hz ⊢ <;> omega

/-- The number of a word, from the numbers of its fields. -/
theorem ofNat_op_arg (op : Nat) {arg : Nat} (h : arg < 2 ^ 24) :
    BitVec.ofNat 32 (op * 2 ^ 24 + arg) = BitVec.ofNat 8 op ++ BitVec.ofNat 24 arg := by
  apply BitVec.eq_of_toNat_eq
  rw [toNat_op_append, BitVec.toNat_ofNat, BitVec.toNat_ofNat, BitVec.toNat_ofNat]; omega

/-- An argument above the operand's range makes a word illegal. -/
theorem decode_ne_ok_of_operandWidth {op arg : Nat} {f : Format} (hf : formatOfOp (BitVec.ofNat 8 op) = some f)
    (hle : 2 ^ operandWidth f ≤ arg) (hlt : arg < 2 ^ 24) (i : Instr) :
    decode (BitVec.ofNat 32 (op * 2 ^ 24 + arg)) ≠ .ok i := by
  intro h
  have hwf := wellFormedWord_iff_exists_decode.mpr ⟨i, h⟩
  rw [ofNat_op_arg op hlt, wellFormedWord_eq_argOk (by rwa [opField_append]), argField_append] at hwf
  have hfit := toNat_lt_of_argOk hwf
  rw [BitVec.toNat_ofNat, Nat.mod_eq_of_lt hlt] at hfit
  omega

/-- Zeros over a number that fits below them. -/
theorem zero_append_ofNat {n w a : Nat} (h : a < 2 ^ w) : 0#n ++ BitVec.ofNat w a = BitVec.ofNat (n + w) a := by
  rw [zero_append_eq_setWidth, BitVec.setWidth_ofNat_of_le_of_lt (Nat.le_add_left w n) h]

theorem encode_palS2c_ofNat {arg : Nat} (h : arg < 8) :
    encode (.palS2c (BitVec.ofNat 3 arg)) = BitVec.ofNat 32 (0x05 * 2 ^ 24 + arg) := by
  rw [ofNat_op_arg _ (by omega), encode, zero_append_ofNat h]

theorem encode_crcCalc_ofNat {arg : Nat} (h : arg < 2) :
    encode (.crcCalc (BitVec.ofNat 1 arg)) = BitVec.ofNat 32 (0x07 * 2 ^ 24 + arg) := by
  rw [ofNat_op_arg _ (by omega), encode, zero_append_ofNat h]

theorem encode_palC2s_eq_ofNat (r g b : Byte) :
    encode (.palC2s r g b) = BitVec.ofNat 32 (0x06 * 2 ^ 24 + r.toNat * 65536 + g.toNat * 256 + b.toNat) := by
  apply BitVec.eq_of_toNat_eq
  have := r.isLt; have := g.isLt; have := b.isLt
  rw [encode, toNat_op_append 0x06#8 (r ++ (g ++ b)), toNat_rgb, BitVec.toNat_ofNat, BitVec.toNat_ofNat]; omega

end Sys2Proof.Machine
end

section
/-!
PROOFS. The statements about the encoding, settled.
-/

namespace Sys2Proof.Machine

open Sys2Proof Sys2Proof.Claims

/-- Settles O1: each format reads its operand back from the argument it was put into. -/
theorem decodeInvertsEncode : Obligations.DecodeInvertsEncode := decode_encode

/-- Settles O2: `op` fixes the format, and the format fixes every bit of the argument. -/
theorem encodeInvertsDecode : Obligations.EncodeInvertsDecode := fun _ _ => encode_eq_of_decode

/-- Settles O3: a word selects a row exactly when it is legal and has the `op` on which alone the row depends. -/
theorem opcodeRowsSelectTheCommand : Obligations.OpcodeRowsSelectTheCommand := by
  refine ⟨rfl, rfl, rfl, rfl, fun _ => rfl, fun _ _ _ => rfl, fun _ => rfl, rfl, rfl, fun _ _ => beq_iff_eq,
    fun _ _ _ => tableRow_eq_of_selectsRow, fun _ _ => selectsRow_of_decode, fun w i hi => ?_⟩
  obtain ⟨-, hwf⟩ := selectsRow_iff.mp hi
  obtain ⟨j, hj⟩ := exists_decode_of_wellFormedWord hwf
  exact ⟨j, hj, tableRow_eq_of_selectsRow (selectsRow_of_decode hj) hi⟩

/-- Settles O4, in both directions: the decoder accepts what the format check accepts, and every command's word
passes the check. -/
theorem wellFormedWordsAreTheLegalWords : Obligations.WellFormedWordsAreTheLegalWords :=
  fun _ => wellFormedWord_iff_exists_decode

/-- Settles O5: the range of the word is the range of its `op`, and an assigned `op` leaves only the argument to
refuse. -/
theorem illegalWordsAreRefusedByName : Obligations.IllegalWordsAreRefusedByName := by
  intro w
  have hop := opField_toNat w
  refine ⟨fun h => decode_eq_unassignedOp (by omega), fun ⟨h1, h9, hwf⟩ => ?_⟩
  cases hd : decode w with
  | ok i => exact absurd (wellFormedWord_iff_exists_decode.mpr ⟨i, hd⟩) (Bool.eq_false_iff.mp hwf)
  | error e => exact congrArg Except.error (decode_error_of_assigned (by omega) (by omega) hd)

/-- Settles O6: an argument above the operand's range is illegal, and every operand in range is its command's. -/
theorem formatOperandFields : Obligations.FormatOperandFields := by
  refine ⟨fun op hop arg h0 => ?_, fun arg h => ?_, fun arg => ?_, fun r g b => ?_, fun arg h => ?_, fun arg => ?_⟩
  · have hf : ∀ op ∈ [0x01, 0x02, 0x03, 0x04, 0x08, 0x09], formatOfOp (BitVec.ofNat 8 op) = some .Z := by decide
    exact decode_ne_ok_of_operandWidth (hf op hop) h0
  · rw [← encode_palS2c_ofNat h, decode_encode]
  · exact decode_ne_ok_of_operandWidth (f := .S) (by decide)
  · rw [← encode_palC2s_eq_ofNat, decode_encode]
  · rw [← encode_crcCalc_ofNat h, decode_encode]
  · exact decode_ne_ok_of_operandWidth (f := .F) (by decide)

/-- Settles O7: each sample is its command's word. -/
theorem sampleWordsDecode : Obligations.SampleWordsDecode :=
  ⟨decode_encode .hdrEnc, decode_encode .hdrDec, decode_encode .bpPack, decode_encode .bpUnpack,
    decode_encode (.palS2c 5#3), decode_encode (.palC2s 250#8 10#8 5#8), decode_encode (.crcCalc 1#1),
    decode_encode .crcVerify, decode_encode .srst⟩

/-- Settles O42: a write to `CMD` issues its word, and a command's word issues the command. -/
theorem stepRunsTheDecodedCommand : Obligations.StepRunsTheDecodedCommand := by
  intro s w i rest h
  rw [step_cmdWrite, issueWord, h]
  rfl

end Sys2Proof.Machine
end

section
/-!
PROOFS. The header codec (spec 40_header_codec R110-R114): the header that 13 cells of a buffer hold, and the two
commands in terms of it.
-/

namespace Sys2Proof.Machine

open Sys2Proof Sys2Proof.Claims

/-! ### Commands in a clean state -/

theorem exec_of_commandBody_ok {i : Instr} {s t : State} (hi : i ≠ .srst) (he : s.err = 0#8)
    (hb : commandBody i s = .ok t) : exec i s = .next t := by
  rw [exec_eq_issue hi, issue_of_ok he hb]

theorem exec_of_commandBody_error {i : Instr} {s : State} {f : FaultRecord} (hi : i ≠ .srst) (he : s.err = 0#8)
    (hb : commandBody i s = .error f) : exec i s = .next (s.raise f) := by
  rw [exec_eq_issue hi, issue_of_error he hb]

/-- A command that ends without a fault in a clean state completed. -/
theorem commandBody_ok_of_exec_clean {i : Instr} {s t : State} (hi : i ≠ .srst) (he : s.err = 0#8)
    (h : exec i s = .next t) (ht : t.err = 0#8) : commandBody i s = .ok t := by
  rw [exec_eq_issue hi] at h
  rcases issue_cases h with ⟨hs, -⟩ | ⟨-, hb⟩ | ⟨-, f, -, rfl⟩
  · exact absurd he hs
  · exact hb
  · exact absurd ht f.kind.code_ne_zero

/-! ### The header in a buffer -/

/-- The header whose 13 bytes stand from address `a` on (R110). -/
def headerAt (m : List Host.Cell) (a : Nat) : Header where
  csize := wordAt m a
  osize := wordAt m (a + 4)
  crc := wordAt m (a + 8)
  flags := Memory.read m (a + 12)

theorem parseHeader_readRange (m : List Host.Cell) (a : Nat) : parseHeader (Memory.readRange m a 13) = headerAt m a :=
  rfl

theorem parseHeader_headerBytes (h : Header) : parseHeader (headerBytes h) = h := by
  obtain ⟨csize, osize, crc, flags⟩ := h
  exact Header.mk.injEq .. |>.mpr ⟨be32_be32Bytes csize, be32_be32Bytes osize, be32_be32Bytes crc, rfl⟩

/-- A range read after a range write to the same place gives the cells written. -/
theorem Memory.readRange_writeRange_self {w : Nat} (m : List (Nat × BitVec w)) (a : Nat) (l : List (BitVec w)) :
    Memory.readRange (Memory.writeRange m a l) a l.length = l := by
  refine List.ext_getElem (Memory.readRange_length ..) fun i _ hi => ?_
  rw [← List.getD_eq_getElem _ 0#w, ← List.getD_eq_getElem _ 0#w, Memory.readRange_getD _ _ hi,
    Memory.read_writeRange_inside _ _ _ hi]

/-- The bytes of a header, once written, hold that header. -/
theorem headerAt_writeRange_headerBytes (m : List Host.Cell) (a : Nat) (h : Header) :
    headerAt (Memory.writeRange m a (headerBytes h)) a = h := by
  rw [← parseHeader_readRange, ← headerBytes_length h, Memory.readRange_writeRange_self, parseHeader_headerBytes]

theorem headerAt_congr {m m' : List Host.Cell} {a : Nat}
    (h : ∀ i, i < 13 → Memory.read m (a + i) = Memory.read m' (a + i)) : headerAt m a = headerAt m' a := by
  rw [← parseHeader_readRange, Memory.readRange_congr h, parseHeader_readRange]

/-! ### The flags byte -/

/-- The reserved bits 7:1 are clear exactly in the bytes 0 and 1. -/
theorem reservedFlags_eq_zero_iff (b : Byte) : b.extractLsb' 1 7 = 0#7 ↔ b.toNat ≤ 1 := by
  have hb := b.isLt
  rw [← BitVec.toNat_inj, toNat_field]
  simp only [BitVec.toNat_ofNat]
  omega

theorem setWidth_one_eq_ite (b : Byte) : b.setWidth 1 = if b.getLsbD 0 then 1#1 else 0#1 := by
  rw [BitVec.setWidth_one]
  cases b.getLsbD 0 <;> rfl

theorem flag_setWidth_eq_ite : ∀ f : BitVec 1, f.setWidth 8 = if f = 1#1 then 0x01#8 else 0x00#8 := by decide

theorem flag_setWidth_toNat_le : ∀ f : BitVec 1, (f.setWidth 8).toNat ≤ 1 := by decide

theorem flag_setWidth_getLsbD_eq_false_iff : ∀ f : BitVec 1, (f.setWidth 8).getLsbD 0 = false ↔ f = 0#1 := by decide

theorem flag_setWidth_setWidth : ∀ f : BitVec 1, (f.setWidth 8).setWidth 1 = f := by decide

/-! ### Checks 2, 3 and 4 (R112) -/

/-- Checks 2 and 3 as conditions on numbers. -/
theorem headerFlaw_eq (h : Header) (avail : Word) :
    headerFlaw h avail =
      if 2 ≤ h.flags.toNat then some 2
      else if avail.toNat < (8 * h.csize.toNat + 2) / 3 then some 3
      else if h.flags.getLsbD 0 = false ∧ h.csize ≠ h.osize then some 4
      else none := by
  have hflags : h.flags.extractLsb' 1 7 ≠ 0#7 ↔ 2 ≤ h.flags.toNat := by
    rw [ne_eq, reservedFlags_eq_zero_iff, not_le]
    rfl
  simp only [headerFlaw, hflags, nsym_eq]

theorem headerFlaw_of_reserved {h : Header} {avail : Word} (h2 : 2 ≤ h.flags.toNat) : headerFlaw h avail = some 2 := by
  rw [headerFlaw_eq, if_pos h2]

section Unreserved

variable {h : Header} {avail : Word} (h2 : h.flags.toNat ≤ 1)
include h2

theorem headerFlaw_of_unavailable (h3 : avail.toNat < (8 * h.csize.toNat + 2) / 3) : headerFlaw h avail = some 3 := by
  rw [headerFlaw_eq, if_neg (by omega), if_pos h3]

theorem headerFlaw_of_sizes (h3 : (8 * h.csize.toNat + 2) / 3 ≤ avail.toNat)
    (h4 : h.flags.getLsbD 0 = false ∧ h.csize ≠ h.osize) : headerFlaw h avail = some 4 := by
  rw [headerFlaw_eq, if_neg (by omega), if_neg (by omega), if_pos h4]

theorem headerFlaw_eq_none (h3 : (8 * h.csize.toNat + 2) / 3 ≤ avail.toNat)
    (h4 : ¬(h.flags.getLsbD 0 = false ∧ h.csize ≠ h.osize)) : headerFlaw h avail = none := by
  rw [headerFlaw_eq, if_neg (by omega), if_neg (by omega), if_neg h4]

end Unreserved

/-! ### The two commands -/

/-- `HDR.ENC` in range puts the header of the registers at `BADDR`. -/
theorem exec_hdrEnc_of_fits {s : State} (he : s.err = 0#8) (hr : s.baddr.toNat + 13 ≤ s.cfg.bbSize.toNat) :
    exec .hdrEnc s = .next (s.setBB (Memory.writeRange s.bb s.baddr.toNat (headerBytes s.header))) := by
  rcases hdrEncBody_cases s with ⟨-, hb⟩ | ⟨hr', -⟩
  · exact exec_of_commandBody_ok (by decide) he hb
  · omega

theorem exec_hdrEnc_of_not_fits {s : State} (he : s.err = 0#8) (hr : s.cfg.bbSize.toNat < s.baddr.toNat + 13) :
    exec .hdrEnc s = .next (s.raise (operandRange 1)) := by
  rcases hdrEncBody_cases s with ⟨hr', -⟩ | ⟨-, hb⟩
  · omega
  · exact exec_of_commandBody_error (by decide) he hb

theorem exec_hdrDec_of_not_fits {s : State} (he : s.err = 0#8)
    (hr : s.cfg.bbSize.toNat < s.baddr.toNat + s.blen.toNat) :
    exec .hdrDec s = .next (s.raise (operandRange 1)) := by
  rcases hdrDecBody_cases s with ⟨-, hb⟩ | ⟨hr', -⟩ | ⟨hr', -⟩
  · exact exec_of_commandBody_error (by decide) he hb
  · omega
  · omega

theorem exec_hdrDec_of_short {s : State} (he : s.err = 0#8)
    (hr : s.baddr.toNat + s.blen.toNat ≤ s.cfg.bbSize.toNat) (hl : s.blen.toNat < 13) :
    exec .hdrDec s = .next (s.raise (headerCorrupt 1)) := by
  rcases hdrDecBody_cases s with ⟨hr', -⟩ | ⟨-, -, hb⟩ | ⟨-, hl', -⟩
  · omega
  · exact exec_of_commandBody_error (by decide) he hb
  · omega

section Received

variable {s : State} {h : Header} (hr : s.baddr.toNat + s.blen.toNat ≤ s.cfg.bbSize.toNat) (hl : 13 ≤ s.blen.toNat)
  (hh : headerAt s.bb s.baddr.toNat = h)
include hr hl hh

/-- With 13 bytes in range `HDR.DEC` goes by the header they hold. -/
theorem commandBody_hdrDec : commandBody .hdrDec s = acceptHeader h s := by
  rcases hdrDecBody_cases s with ⟨hr', -⟩ | ⟨-, hl', -⟩ | ⟨-, -, hb⟩
  · omega
  · omega
  · exact hh ▸ hb

theorem exec_hdrDec_of_flaw (he : s.err = 0#8) {c : Nat} (hf : headerFlaw h s.hdrAvail = some c) :
    exec .hdrDec s = .next (s.raise (headerCorrupt c)) :=
  exec_of_commandBody_error (by decide) he (by rw [commandBody_hdrDec hr hl hh, acceptHeader, hf])

theorem exec_hdrDec_of_no_flaw (he : s.err = 0#8) (hf : headerFlaw h s.hdrAvail = none) :
    exec .hdrDec s = .next (s.setHeader h.csize h.osize h.crc (h.flags.setWidth 1)) :=
  exec_of_commandBody_ok (by decide) he (by rw [commandBody_hdrDec hr hl hh, acceptHeader, hf])

end Received

/-- What check 3 leaves behind: a header that `HDR.DEC` accepts needs no more symbols than were available (R113). -/
theorem nsym_hdrCsize_le_of_exec_hdrDec {s t : State} (he : s.err = 0#8) (h : exec .hdrDec s = .next t)
    (ht : t.err = 0#8) : nsym t.hdrCsize.toNat ≤ s.hdrAvail.toNat := by
  have hok : hdrDecBody s = .ok t := commandBody_ok_of_exec_clean (by decide) he h ht
  rcases hdrDecBody_cases s with ⟨-, hb⟩ | ⟨-, -, hb⟩ | ⟨-, -, hb⟩ <;> rw [hok] at hb
  · cases hb
  · cases hb
  · obtain ⟨hf, rfl⟩ := acceptHeader_ok hb.symm
    rcases headerFlaw_cases (parseHeader (s.bytesAt 13)) s.hdrAvail with
      ⟨-, hf'⟩ | ⟨-, -, hf'⟩ | ⟨-, -, -, -, hf'⟩ | ⟨-, hn, -⟩
    · cases hf.symm.trans hf'
    · cases hf.symm.trans hf'
    · cases hf.symm.trans hf'
    · exact hn

/-- `BP.UNPACK` completes when its ranges fit and there are symbols enough. -/
theorem exec_bpUnpack_of_fits {s : State} (he : s.err = 0#8)
    (hr : s.baddr.toNat + s.blen.toNat ≤ s.cfg.bbSize.toNat) (hs : s.saddr.toNat + s.slen.toNat ≤ s.cfg.sbSize.toNat)
    (hn : nsym s.blen.toNat ≤ s.slen.toNat) :
    exec .bpUnpack s = .next (s.setBB (Memory.writeRange s.bb s.baddr.toNat
      (unpack (s.symsAt (nsym s.blen.toNat)) s.blen.toNat))) := by
  rcases bpUnpackBody_cases s with ⟨hr', -⟩ | ⟨-, hs', -⟩ | ⟨-, -, hn', -⟩ | ⟨-, -, -, hb⟩
  · omega
  · omega
  · omega
  · exact exec_of_commandBody_ok (by decide) he hb

end Sys2Proof.Machine
end

section
/-!
PROOFS. The statements about the header codec, settled.
-/

namespace Sys2Proof.Machine

open Sys2Proof Sys2Proof.Claims

/-- Settles O8: the header written is read back field by field, and a range write reaches no other byte. -/
theorem hdrEncWritesTheHeader : Obligations.HdrEncWritesTheHeader := by
  refine ⟨by decide, fun s he hr => ?_, fun s he hr => exec_hdrEnc_of_not_fits he hr⟩
  have hh := headerAt_writeRange_headerBytes s.bb s.baddr.toNat s.header
  refine ⟨_, exec_hdrEnc_of_fits he hr, rfl, congrArg Header.csize hh, congrArg Header.osize hh,
    congrArg Header.crc hh, ?_, fun x hx => Memory.read_writeRange_outside _ _ hx⟩
  exact (congrArg Header.flags hh).trans (flag_setWidth_eq_ite s.hdrFlags)

/-- Settles O9: each clause fixes the first check that fails. -/
theorem hdrDecLoadsTheHeader : Obligations.HdrDecLoadsTheHeader := by
  refine ⟨by decide, fun s he hr hl h2 h3 h4 => ?_, fun s he hr => exec_hdrDec_of_not_fits he hr,
    fun s he hr hl => exec_hdrDec_of_short he hr hl,
    fun s he hr hl h2 => exec_hdrDec_of_flaw hr hl rfl he (headerFlaw_of_reserved h2),
    fun s he hr hl h2 h3 => exec_hdrDec_of_flaw hr hl rfl he (headerFlaw_of_unavailable h2 h3),
    fun s he hr hl hflags h3 hne => ?_⟩
  · have hsizes : ¬((Memory.read s.bb (s.baddr.toNat + 12)).getLsbD 0 = false ∧
        wordAt s.bb s.baddr.toNat ≠ wordAt s.bb (s.baddr.toNat + 4)) :=
      fun ⟨hclear, hne⟩ => h4.elim (fun hset => Bool.false_ne_true (hclear.symm.trans hset)) hne
    rw [exec_hdrDec_of_no_flaw hr hl rfl he (headerFlaw_eq_none h2 h3 hsizes), setWidth_one_eq_ite]
    rfl
  · have h2 : (Memory.read s.bb (s.baddr.toNat + 12)).toNat ≤ 1 := by rw [hflags]; decide
    have hclear : (Memory.read s.bb (s.baddr.toNat + 12)).getLsbD 0 = false := by rw [hflags]; decide
    exact exec_hdrDec_of_flaw hr hl rfl he (headerFlaw_of_sizes h2 h3 ⟨hclear, hne⟩)

/-- Settles O10: the header at `BADDR` is the one the registers held, whose reserved flag bits are 0. -/
theorem headerRoundTrip : Obligations.HeaderRoundTrip := by
  intro s t u he hr henc hu hbase hl hru hcells
  rw [exec_hdrEnc_of_fits he hr] at henc
  cases henc
  have hh : headerAt u.bb u.baddr.toNat = s.header := by
    rw [hbase, headerAt_congr hcells, State.setBB_bb, headerAt_writeRange_headerBytes]
  have h2 : s.header.flags.toNat ≤ 1 := flag_setWidth_toNat_le s.hdrFlags
  have hclear : s.header.flags.getLsbD 0 = false ↔ s.hdrFlags = 0#1 := flag_setWidth_getLsbD_eq_false_iff s.hdrFlags
  split_ifs with h3 h4
  · exact exec_hdrDec_of_flaw hru hl hh hu (headerFlaw_of_unavailable h2 h3)
  · exact exec_hdrDec_of_flaw hru hl hh hu (headerFlaw_of_sizes h2 (not_lt.mp h3) ⟨hclear.mpr h4.1, h4.2⟩)
  · rw [← hclear] at h4
    rw [exec_hdrDec_of_no_flaw hru hl hh hu (headerFlaw_eq_none h2 (not_lt.mp h3) h4), State.header,
      flag_setWidth_setWidth]
    rfl

/-- Settles O11: check 3 bounds the symbols that the unpacking of the payload takes. -/
theorem acceptedHeaderNeverStarvesUnpack : Obligations.AcceptedHeaderNeverStarvesUnpack := by
  intro s t u he hdec ht hu hlen havail hr hs
  have hn : nsym u.blen.toNat ≤ u.slen.toNat :=
    (hlen ▸ nsym_hdrCsize_le_of_exec_hdrDec he hdec ht).trans havail
  exact ⟨_, exec_bpUnpack_of_fits hu hr hs hn, hu⟩

end Sys2Proof.Machine
end

section
/-!
PROOFS. Numbers from their binary digits, most significant first: the form in which the packer takes symbols from a
bit stream and puts bytes together (spec 41_bit_packer R130, R133).
-/

namespace Sys2Proof.Machine

open Sys2Proof

/-- The number whose `n` binary digits are `f 0`, `f 1`, ..., the first most significant. -/
def msbNat (f : Nat → Bool) : Nat → Nat
  | 0 => 0
  | n + 1 => 2 * msbNat f n + (f n).toNat

theorem msbNat_congr {f g : Nat → Bool} {n : Nat} (h : ∀ t, t < n → f t = g t) : msbNat f n = msbNat g n := by
  induction n with
  | zero => rfl
  | succ n ih => rw [msbNat, msbNat, ih fun t ht => h t (by omega), h n (by omega)]

theorem msbNat_lt (f : Nat → Bool) (n : Nat) : msbNat f n < 2 ^ n := by
  induction n with
  | zero => exact Nat.one_pos
  | succ n ih =>
    have hbit := Bool.toNat_lt (f n)
    rw [msbNat, pow_succ]
    omega

/-- The first `n` digits stand `k` places above the next `k`. -/
theorem msbNat_add (f : Nat → Bool) (n k : Nat) :
    msbNat f (n + k) = msbNat f n * 2 ^ k + msbNat (fun t => f (n + t)) k := by
  induction k with
  | zero => simp [msbNat]
  | succ k ih =>
    rw [← Nat.add_assoc, msbNat, ih, msbNat, pow_succ]
    ring

theorem msbNat_add_div (f : Nat → Bool) (n k : Nat) : msbNat f (n + k) / 2 ^ k = msbNat f n := by
  rw [msbNat_add, Nat.mul_comm, Nat.mul_add_div (Nat.two_pow_pos k), Nat.div_eq_of_lt (msbNat_lt ..), Nat.add_zero]

theorem msbNat_add_mod (f : Nat → Bool) (n k : Nat) : msbNat f (n + k) % 2 ^ k = msbNat (fun t => f (n + t)) k := by
  rw [msbNat_add, Nat.mul_add_mod', Nat.mod_eq_of_lt (msbNat_lt ..)]

theorem msbNat_eq_zero {f : Nat → Bool} {n : Nat} (h : ∀ t, t < n → f t = false) : msbNat f n = 0 := by
  induction n with
  | zero => rfl
  | succ n ih => rw [msbNat, ih fun t ht => h t (by omega), h n (by omega)]; rfl

/-- Zero digits at the end shift the number left. -/
theorem msbNat_add_of_zeros {f : Nat → Bool} {n k : Nat} (h : ∀ t, n ≤ t → f t = false) :
    msbNat f (n + k) = msbNat f n * 2 ^ k := by
  rw [msbNat_add, msbNat_eq_zero fun t _ => h (n + t) (by omega), Nat.add_zero]

/-- The number as the sum of the digits' place values (R133). -/
theorem msbNat_eq_sum (f : Nat → Bool) (n : Nat) :
    msbNat f n = ∑ t ∈ Finset.range n, (f t).toNat * 2 ^ (n - 1 - t) := by
  induction n with
  | zero => rfl
  | succ n ih =>
    have hshift : ∀ t ∈ Finset.range n, (f t).toNat * 2 ^ (n - t) = 2 * ((f t).toNat * 2 ^ (n - 1 - t)) := by
      intro t ht
      have ht' := Finset.mem_range.mp ht
      rw [show n - t = n - 1 - t + 1 by omega, pow_succ]
      ring
    rw [msbNat, ih, Finset.mul_sum, Finset.sum_range_succ, Nat.add_sub_cancel, Finset.sum_congr rfl hshift,
      Nat.sub_self, pow_zero, Nat.mul_one]

/-- The digit at place `n - 1 - t`. -/
theorem testBit_msbNat (f : Nat → Bool) {n t : Nat} (h : t < n) : (msbNat f n).testBit (n - 1 - t) = f t := by
  rw [Nat.testBit_eq_decide_div_mod_eq]
  conv_lhs => rw [show n = t + 1 + (n - 1 - t) by omega]
  rw [show t + 1 + (n - 1 - t) - 1 - t = n - 1 - t by omega, msbNat_add_div, msbNat, Nat.mul_add_mod]
  cases f t <;> rfl

variable {w : Nat}

/-- The word whose bits, from the most significant on, are `f 0`, `f 1`, ... -/
theorem getMsbD_ofNat_msbNat (f : Nat → Bool) {t : Nat} (h : t < w) :
    (BitVec.ofNat w (msbNat f w)).getMsbD t = f t := by
  rw [BitVec.getMsbD_eq_getLsbD, BitVec.getLsbD_ofNat, testBit_msbNat f h, decide_eq_true h,
    decide_eq_true (by omega), Bool.true_and, Bool.true_and]

theorem toNat_ofNat_msbNat (f : Nat → Bool) : (BitVec.ofNat w (msbNat f w)).toNat = msbNat f w :=
  Nat.mod_eq_of_lt (msbNat_lt f w)

/-- A word is the number of its own bits. -/
theorem ofNat_msbNat_eq {f : Nat → Bool} {x : BitVec w} (h : ∀ t, t < w → f t = x.getMsbD t) :
    BitVec.ofNat w (msbNat f w) = x :=
  BitVec.eq_of_getMsbD_eq fun t ht => (getMsbD_ofNat_msbNat f ht).trans (h t ht)

/-- Shifting right and back clears the low bits. -/
theorem toNat_ushiftRight_shiftLeft (x : BitVec w) (p : Nat) :
    (x >>> p <<< p).toNat = x.toNat / 2 ^ p * 2 ^ p := by
  rw [BitVec.toNat_shiftLeft, BitVec.toNat_ushiftRight, Nat.shiftLeft_eq, Nat.shiftRight_eq_div_pow,
    Nat.mod_eq_of_lt ((Nat.div_mul_le_self ..).trans_lt x.isLt)]

end Sys2Proof.Machine
end

section
/-!
PROOFS. The bit streams of packing and unpacking (spec 41_bit_packer R130-R137): the stream of a packing is the stream
of its bytes, and the stream of an unpacking is the stream of its symbols up to the pad bits.
-/

namespace Sys2Proof.Machine

open Sys2Proof Sys2Proof.Claims

/-! ### The stream of a byte sequence (R130, R131) -/

/-- The bytes' stream without its bound, the bits of a byte counted from its most significant. -/
theorem streamBit_eq (b : List Byte) (k : Nat) : streamBit b k = (b.getD (k / 8) 0#8).getMsbD (k % 8) := by
  have hk : k % 8 < 8 := Nat.mod_lt _ (by decide)
  rw [BitVec.getMsbD_eq_getLsbD, decide_eq_true hk, Bool.true_and, streamBit]
  split_ifs with h
  · rfl
  · rw [List.getD_eq_default _ _ (by omega), BitVec.getLsbD_zero]

theorem streamBit_of_le {b : List Byte} {k : Nat} (h : 8 * b.length ≤ k) : streamBit b k = false :=
  if_neg (by omega)

/-- Bit `t` of byte `i`. -/
theorem streamBit_byte (b : List Byte) (i : Nat) {t : Nat} (h : t < 8) :
    streamBit b (8 * i + t) = (b.getD i 0#8).getMsbD t := by
  rw [streamBit_eq, show (8 * i + t) / 8 = i by omega, show (8 * i + t) % 8 = t by omega]

theorem streamBit_append_left {a b : List Byte} {k : Nat} (h : k < 8 * a.length) :
    streamBit (a ++ b) k = streamBit a k := by
  rw [streamBit_eq, streamBit_eq, List.getD_append _ _ _ _ (by omega)]

theorem streamBit_append_right (a b : List Byte) (k : Nat) :
    streamBit (a ++ b) (8 * a.length + k) = streamBit b k := by
  rw [streamBit_eq, streamBit_eq, List.getD_append_right _ _ _ _ (by omega), Nat.mul_add_mod,
    Nat.mul_add_div (by decide), Nat.add_sub_cancel_left]

/-- The bytes read as one number are the number of their stream (R131). -/
theorem foldl_bytes_eq_msbNat (b : List Byte) :
    b.foldl (fun v x => v * 256 + x.toNat) 0 = msbNat (streamBit b) (8 * b.length) := by
  induction b using List.reverseRecOn with
  | nil => rfl
  | append_singleton b x ih =>
    have hinit : msbNat (streamBit (b ++ [x])) (8 * b.length) = msbNat (streamBit b) (8 * b.length) :=
      msbNat_congr fun t ht => streamBit_append_left ht
    have hlast : msbNat (fun t => streamBit (b ++ [x]) (8 * b.length + t)) 8 = x.toNat := by
      rw [← toNat_ofNat_msbNat, ofNat_msbNat_eq]
      intro t ht
      rw [streamBit_byte _ _ ht, List.getD_append_right _ _ _ _ le_rfl, Nat.sub_self]
      rfl
    rw [List.foldl_append, ih, List.length_append, Nat.mul_add, msbNat_add, hinit]
    exact congrArg (_ + ·) hlast.symm

/-! ### The packing (R130, R131) -/

theorem packSym_eq (b : List Byte) (j : Nat) :
    packSym b j = BitVec.ofNat 3 (msbNat (fun t => streamBit b (3 * j + t)) 3) := by
  simp only [packSym, symOfBits, msbNat, Nat.add_zero]
  congr 1
  omega

theorem packSym_toNat (b : List Byte) (j : Nat) :
    (packSym b j).toNat = msbNat (fun t => streamBit b (3 * j + t)) 3 := by
  rw [packSym_eq, toNat_ofNat_msbNat]

theorem packSym_getMsbD (b : List Byte) (j : Nat) {t : Nat} (h : t < 3) :
    (packSym b j).getMsbD t = streamBit b (3 * j + t) := by
  rw [packSym_eq, getMsbD_ofNat_msbNat _ h]

theorem packSym_congr {a b : List Byte} {i j : Nat}
    (h : ∀ t, t < 3 → streamBit a (3 * i + t) = streamBit b (3 * j + t)) : packSym a i = packSym b j := by
  rw [packSym_eq, packSym_eq, msbNat_congr h]

theorem pack_getD {b : List Byte} {j : Nat} (h : j < nsym b.length) : (pack b).getD j 0#3 = packSym b j := by
  simp [pack, List.getD, List.getElem?_map, List.getElem?_range h]

/-- Where a packing ends on a symbol boundary, the next one continues it (R137). -/
theorem pack_append {a : List Byte} (b : List Byte) (ha : a.length % 3 = 0) : pack (a ++ b) = pack a ++ pack b := by
  have hcount : nsym (a ++ b).length = nsym a.length + nsym b.length := by
    rw [List.length_append]; simp only [nsym_eq]; omega
  have hfull : 3 * nsym a.length = 8 * a.length := by rw [nsym_eq]; omega
  rw [pack, hcount, List.range_add, List.map_append, List.map_map]
  refine congrArg₂ _ (List.map_congr_left fun j hj => ?_) (List.map_congr_left fun j _ => ?_)
  · have hj' := List.mem_range.mp hj
    exact packSym_congr fun t ht => streamBit_append_left (by omega)
  · refine packSym_congr fun t _ => ?_
    rw [show 3 * (nsym a.length + j) + t = 8 * a.length + (3 * j + t) by omega, streamBit_append_right]

/-! ### The unpacking (R133) -/

/-- The symbols' stream, the bits of a symbol counted from its most significant. -/
theorem symStreamBit_eq (l : List Sym) (k : Nat) : symStreamBit l k = (l.getD (k / 3) 0#3).getMsbD (k % 3) := by
  have hk : k % 3 < 3 := Nat.mod_lt _ (by decide)
  rw [BitVec.getMsbD_eq_getLsbD, decide_eq_true hk, Bool.true_and, symStreamBit]

theorem unpackByte_eq (l : List Sym) (i : Nat) :
    unpackByte l i = BitVec.ofNat 8 (msbNat (fun t => symStreamBit l (8 * i + t)) 8) := by
  rw [msbNat_eq_sum]
  rfl

theorem unpackByte_toNat (l : List Sym) (i : Nat) :
    (unpackByte l i).toNat = msbNat (fun t => symStreamBit l (8 * i + t)) 8 := by
  rw [unpackByte_eq, toNat_ofNat_msbNat]

theorem unpackByte_getMsbD (l : List Sym) (i : Nat) {t : Nat} (h : t < 8) :
    (unpackByte l i).getMsbD t = symStreamBit l (8 * i + t) := by
  rw [unpackByte_eq, getMsbD_ofNat_msbNat _ h]

theorem unpack_getD (l : List Sym) {n i : Nat} (h : i < n) : (unpack l n).getD i 0#8 = unpackByte l i := by
  simp [unpack, List.getD, List.getElem?_map, List.getElem?_range h]

/-- Unpacking to `n` bytes reads the first `8 * n` bits of the stream and no more (R133). -/
theorem unpack_congr {l l' : List Sym} {n : Nat} (h : ∀ k, k < 8 * n → symStreamBit l k = symStreamBit l' k) :
    unpack l n = unpack l' n :=
  List.map_congr_left fun i hi => by
    have hi' := List.mem_range.mp hi
    rw [unpackByte_eq, unpackByte_eq, msbNat_congr fun t _ => h (8 * i + t) (by omega)]

/-! ### One after the other (R135, R136) -/

/-- The stream of a packing is the stream of its bytes. -/
theorem symStreamBit_pack (b : List Byte) (k : Nat) : symStreamBit (pack b) k = streamBit b k := by
  have hpad := nsym_bounds b.length
  rw [symStreamBit_eq]
  by_cases h : k / 3 < nsym b.length
  · rw [pack_getD h, packSym_getMsbD _ _ (Nat.mod_lt _ (by decide)), Nat.div_add_mod]
  · rw [List.getD_eq_default _ _ (by rw [pack_length]; omega), streamBit_of_le (by omega), BitVec.getMsbD_zero]

/-- Unpacking inverts packing (R135). -/
theorem unpack_pack (b : List Byte) : unpack (pack b) b.length = b := by
  refine List.ext_getElem (unpack_length ..) fun i h hi => ?_
  rw [unpack_length] at h
  rw [← List.getD_eq_getElem _ 0#8, ← List.getD_eq_getElem _ 0#8, unpack_getD _ h]
  refine BitVec.eq_of_getMsbD_eq fun t ht => ?_
  rw [unpackByte_getMsbD _ _ ht, symStreamBit_pack, streamBit_byte _ _ ht]

/-- The stream of an unpacking is the stream of its symbols. -/
theorem streamBit_unpack (l : List Sym) {n k : Nat} (h : k < 8 * n) :
    streamBit (unpack l n) k = symStreamBit l k := by
  rw [streamBit_eq, unpack_getD l (by omega), unpackByte_getMsbD _ _ (Nat.mod_lt _ (by decide)), Nat.div_add_mod]

/-- Bit `t` of symbol `j` of a packed unpacking: that of the symbol, or 0 in the pad bits. -/
theorem packSym_unpack_getMsbD (l : List Sym) (n j : Nat) {t : Nat} (h : t < 3) :
    (packSym (unpack l n) j).getMsbD t = (decide (3 * j + t < 8 * n) && (l.getD j 0#3).getMsbD t) := by
  rw [packSym_getMsbD _ _ h]
  by_cases hk : 3 * j + t < 8 * n
  · rw [streamBit_unpack l hk, symStreamBit_eq, decide_eq_true hk, Bool.true_and,
      show (3 * j + t) / 3 = j by omega, show (3 * j + t) % 3 = t by omega]
  · rw [streamBit_of_le (by rw [unpack_length]; omega), decide_eq_false hk, Bool.false_and]

/-- A symbol that holds no pad bit comes back. -/
theorem packSym_unpack (l : List Sym) {n j : Nat} (h : 3 * j + 3 ≤ 8 * n) :
    packSym (unpack l n) j = l.getD j 0#3 :=
  BitVec.eq_of_getMsbD_eq fun t ht => by
    rw [packSym_unpack_getMsbD l n j ht, decide_eq_true (by omega), Bool.true_and]

/-- A symbol whose `p` low bits are pad bits comes back with these bits 0 (R136). -/
theorem packSym_unpack_of_pad (l : List Sym) {n j p : Nat} (h : 3 * j + 3 = 8 * n + p) :
    packSym (unpack l n) j = (l.getD j 0#3) >>> p <<< p := by
  refine BitVec.eq_of_getMsbD_eq fun t ht => ?_
  have hpad : 3 * j + t < 8 * n ↔ t + p < 3 := by omega
  simp [packSym_unpack_getMsbD l n j ht, hpad]

/-! ### Streams of buffer ranges (R132, R134) -/

theorem streamBit_readRange (m : List Host.Cell) (a n k : Nat) :
    streamBit (Memory.readRange m a n) k = bytesBit m a n k := by
  rw [streamBit, bytesBit, Memory.readRange_length]
  split_ifs with h
  · rw [Memory.readRange_getD _ _ (by omega)]
  · rfl

theorem symStreamBit_readRange (m : List (Nat × Sym)) (a : Nat) {n k : Nat} (h : k < 3 * n) :
    symStreamBit (Memory.readRange m a n) k = symsBit m a k := by
  rw [symStreamBit, symsBit, Memory.readRange_getD _ _ (by omega)]

end Sys2Proof.Machine
end

section
/-!
PROOFS. The two packer commands in a clean state, and what `BP.UNPACK` does to another symbol buffer (R132, R134).
-/

namespace Sys2Proof.Machine

open Sys2Proof Sys2Proof.Claims

/-! ### BP.PACK (R132) -/

theorem exec_bpPack_of_fits {s : State} (he : s.err = 0#8) (hr : s.baddr.toNat + s.blen.toNat ≤ s.cfg.bbSize.toNat)
    (hs : s.saddr.toNat + nsym s.blen.toNat ≤ s.cfg.sbSize.toNat) :
    exec .bpPack s = .next ((s.setSB (Memory.writeRange s.sb s.saddr.toNat (pack (s.bytesAt s.blen.toNat)))).setSlen
      (BitVec.ofNat 32 (nsym s.blen.toNat))) := by
  rcases bpPackBody_cases s with ⟨hr', -⟩ | ⟨-, hs', -⟩ | ⟨-, -, hb⟩
  · omega
  · omega
  · exact exec_of_commandBody_ok (by decide) he hb

theorem exec_bpPack_of_bytes_not_fit {s : State} (he : s.err = 0#8)
    (hr : s.cfg.bbSize.toNat < s.baddr.toNat + s.blen.toNat) :
    exec .bpPack s = .next (s.raise (operandRange 1)) := by
  rcases bpPackBody_cases s with ⟨-, hb⟩ | ⟨hr', -⟩ | ⟨hr', -⟩
  · exact exec_of_commandBody_error (by decide) he hb
  · omega
  · omega

theorem exec_bpPack_of_syms_not_fit {s : State} (he : s.err = 0#8)
    (hr : s.baddr.toNat + s.blen.toNat ≤ s.cfg.bbSize.toNat)
    (hs : s.cfg.sbSize.toNat < s.saddr.toNat + nsym s.blen.toNat) :
    exec .bpPack s = .next (s.raise (operandRange 2)) := by
  rcases bpPackBody_cases s with ⟨hr', -⟩ | ⟨-, -, hb⟩ | ⟨-, hs', -⟩
  · omega
  · exact exec_of_commandBody_error (by decide) he hb
  · omega

/-- A `BP.PACK` that ends without a fault packed the bytes at `BADDR`, and its count fits `SLEN`. -/
theorem eq_of_exec_bpPack_clean {s t : State} (he : s.err = 0#8) (h : exec .bpPack s = .next t) (ht : t.err = 0#8) :
    t.slen.toNat = nsym s.blen.toNat ∧
      t.sb = Memory.writeRange s.sb s.saddr.toNat (pack (s.bytesAt s.blen.toNat)) := by
  have hok : bpPackBody s = .ok t := commandBody_ok_of_exec_clean (by decide) he h ht
  rcases bpPackBody_cases s with ⟨-, hb⟩ | ⟨-, -, hb⟩ | ⟨-, hs, hb⟩ <;> rw [hok] at hb <;> cases hb
  have hsize := s.cfg.sbSize.isLt
  exact ⟨Nat.mod_eq_of_lt (by omega), rfl⟩

/-! ### BP.UNPACK (R134) -/

theorem exec_bpUnpack_of_bytes_not_fit {s : State} (he : s.err = 0#8)
    (hr : s.cfg.bbSize.toNat < s.baddr.toNat + s.blen.toNat) :
    exec .bpUnpack s = .next (s.raise (operandRange 1)) := by
  rcases bpUnpackBody_cases s with ⟨-, hb⟩ | ⟨hr', -⟩ | ⟨hr', -⟩ | ⟨hr', -⟩
  · exact exec_of_commandBody_error (by decide) he hb
  all_goals omega

theorem exec_bpUnpack_of_syms_not_fit {s : State} (he : s.err = 0#8)
    (hr : s.baddr.toNat + s.blen.toNat ≤ s.cfg.bbSize.toNat)
    (hs : s.cfg.sbSize.toNat < s.saddr.toNat + s.slen.toNat) :
    exec .bpUnpack s = .next (s.raise (operandRange 2)) := by
  rcases bpUnpackBody_cases s with ⟨hr', -⟩ | ⟨-, -, hb⟩ | ⟨-, hs', -⟩ | ⟨-, hs', -⟩
  · omega
  · exact exec_of_commandBody_error (by decide) he hb
  · omega
  · omega

theorem exec_bpUnpack_of_starved {s : State} (he : s.err = 0#8)
    (hr : s.baddr.toNat + s.blen.toNat ≤ s.cfg.bbSize.toNat) (hs : s.saddr.toNat + s.slen.toNat ≤ s.cfg.sbSize.toNat)
    (hn : s.slen.toNat < nsym s.blen.toNat) :
    exec .bpUnpack s = .next (s.raise (operandRange 3)) := by
  rcases bpUnpackBody_cases s with ⟨hr', -⟩ | ⟨-, hs', -⟩ | ⟨-, -, -, hb⟩ | ⟨-, -, hn', -⟩
  · omega
  · omega
  · exact exec_of_commandBody_error (by decide) he hb
  · omega

theorem State.bytesFit_setSB (s : State) (m : List (Nat × Sym)) (n : Nat) : (s.setSB m).bytesFit n = s.bytesFit n :=
  rfl

theorem State.symsFit_setSB (s : State) (m : List (Nat × Sym)) (n : Nat) : (s.setSB m).symsFit n = s.symsFit n :=
  rfl

/-- With another symbol buffer that unpacks to the same bytes, `BP.UNPACK` ends the same way. -/
theorem bpUnpackBody_setSB {s : State} {m : List (Nat × Sym)}
    (h : unpack ((s.setSB m).symsAt (nsym s.blen.toNat)) s.blen.toNat =
      unpack (s.symsAt (nsym s.blen.toNat)) s.blen.toNat) :
    bpUnpackBody (s.setSB m) = (bpUnpackBody s).map (State.setSB · m) := by
  simp only [bpUnpackBody, State.bytesFit_setSB, State.symsFit_setSB, State.setSB_blen, State.setSB_slen, h]
  split_ifs <;> rfl

/-- A body that ends the same way with another symbol buffer does so under the latch (R221, R223). -/
theorem issue_setSB {body : State → Except FaultRecord State} {s t : State} {m : List (Nat × Sym)}
    (hb : body (s.setSB m) = (body s).map (State.setSB · m)) (h : issue body s = .next t) :
    issue body (s.setSB m) = .next (t.setSB m) := by
  rcases issue_cases h with ⟨he, rfl⟩ | ⟨he, hok⟩ | ⟨he, f, herr, rfl⟩
  · exact issue_of_faulted body he
  · exact issue_of_ok he (by rw [hb, hok]; rfl)
  · exact issue_of_error he (by rw [hb, herr]; rfl)

end Sys2Proof.Machine
end

section
/-!
PROOFS. The statements about the bit packer, settled.
-/

namespace Sys2Proof.Machine

open Sys2Proof Sys2Proof.Claims

/-- Settles O12: the cell at `SADDR + j` is symbol `j` of the packing, whose bits are the bytes' stream. -/
theorem packWritesTheSymbols : Obligations.PackWritesTheSymbols := by
  simp only [Obligations.PackWritesTheSymbols, ← nsym_eq]
  refine ⟨by decide, fun s he hr hs => ?_, fun s he hr => exec_bpPack_of_bytes_not_fit he hr,
    fun s he hr hs => exec_bpPack_of_syms_not_fit he hr hs⟩
  have hexec := exec_bpPack_of_fits he hr hs
  obtain ⟨hslen, -⟩ := eq_of_exec_bpPack_clean he hexec he
  refine ⟨_, hexec, rfl, hslen, fun j hj => ?_, fun x hx => Memory.read_writeRange_outside _ _ (by simpa using hx)⟩
  have hlen : nsym (s.bytesAt s.blen.toNat).length = nsym s.blen.toNat := by rw [State.bytesAt_length]
  show (Memory.read (Memory.writeRange _ _ _) _).toNat = _
  rw [Memory.read_writeRange_inside _ _ _ (by rwa [pack_length, hlen]), pack_getD (by rwa [hlen]), packSym_toNat]
  simp only [State.bytesAt, streamBit_readRange, msbNat, Nat.add_zero]
  omega

/-- Settles O13: the cell at `BADDR + i` is byte `i` of the unpacking, the sum of its bits' place values. -/
theorem unpackWritesTheBytes : Obligations.UnpackWritesTheBytes := by
  simp only [Obligations.UnpackWritesTheBytes, ← nsym_eq]
  refine ⟨by decide, fun s he hr hs hn => ?_, fun s he hr => exec_bpUnpack_of_bytes_not_fit he hr,
    fun s he hr hs => exec_bpUnpack_of_syms_not_fit he hr hs,
    fun s he hr hs hn => exec_bpUnpack_of_starved he hr hs hn⟩
  refine ⟨_, exec_bpUnpack_of_fits he hr hs hn, rfl, fun i hi => ?_,
    fun x hx => Memory.read_writeRange_outside _ _ (by simpa using hx)⟩
  have hbits : ∀ t, t < 8 → symStreamBit (s.symsAt (nsym s.blen.toNat)) (8 * i + t) =
      symsBit s.sb s.saddr.toNat (8 * i + t) := by
    have hroom := nsym_bounds s.blen.toNat
    exact fun t ht => symStreamBit_readRange _ _ (by omega)
  show (Memory.read (Memory.writeRange _ _ _) _).toNat = _
  rw [Memory.read_writeRange_inside _ _ _ (by rwa [unpack_length]), unpack_getD _ hi, unpackByte_toNat,
    msbNat_congr hbits, msbNat_eq_sum]

/-- Settles O14: the symbols are the base-8 digits of the stream's number, because the pad bits shift it left. -/
theorem packCountPaddingAndArithmeticForm : Obligations.PackCountPaddingAndArithmeticForm := by
  intro b
  obtain ⟨hroom, hpad⟩ := nsym_bounds b.length
  rw [pack_length]
  refine ⟨rfl, ?_, fun k => streamBit_of_le, fun k hk hn => by omega, fun j hj => ?_⟩
  · rw [nsym_eq]
    split_ifs <;> omega
  have hvalue : msbNat (streamBit b) (8 * b.length) * 2 ^ (3 * nsym b.length - 8 * b.length) =
      msbNat (streamBit b) (3 * j + 3 + 3 * (nsym b.length - 1 - j)) := by
    rw [← msbNat_add_of_zeros fun t => streamBit_of_le]
    congr 1
    omega
  rw [pack_getD hj, packSym_toNat, foldl_bytes_eq_msbNat, hvalue, msbNat_add_div]
  exact (msbNat_add_mod (streamBit b) (3 * j) 3).symm

/-- Settles O15: a packing has the stream of its bytes. -/
theorem unpackInvertsPack : Obligations.UnpackInvertsPack := unpack_pack

/-- Settles O16: the symbols that `BP.UNPACK` takes are the packing of the bytes. -/
theorem packThenUnpackRestoresTheBytes : Obligations.PackThenUnpackRestoresTheBytes := by
  intro s t u he hpack ht hu hsaddr hblen hn hs hr hsyms
  obtain ⟨hslen, hsb⟩ := eq_of_exec_bpPack_clean he hpack ht
  have hlen : (pack (s.bytesAt s.blen.toNat)).length = nsym s.blen.toNat := by
    rw [pack_length, State.bytesAt_length]
  have htaken : u.symsAt (nsym u.blen.toNat) = pack (s.bytesAt s.blen.toNat) := by
    rw [State.symsAt, hsaddr, hblen, Memory.readRange_congr (hslen ▸ hsyms), hsb, ← hlen,
      Memory.readRange_writeRange_self]
  have hbytes : unpack (u.symsAt (nsym u.blen.toNat)) u.blen.toNat = s.bytesAt s.blen.toNat := by
    rw [htaken, hblen]
    simpa using unpack_pack (s.bytesAt s.blen.toNat)
  refine ⟨_, exec_bpUnpack_of_fits hu hr hs (by rw [hblen, ← hslen]; exact hn), hu, fun i hi => ?_⟩
  show Memory.read (Memory.writeRange _ _ _) _ = _
  rw [hbytes, Memory.read_writeRange_inside _ _ _ (by rwa [State.bytesAt_length]), State.bytesAt,
    Memory.readRange_getD _ _ hi]

/-- Settles O17: only the last symbol holds pad bits. -/
theorem packInvertsUnpackUpToPadBits : Obligations.PackInvertsUnpackUpToPadBits := by
  intro l len hpos hlen
  have hnsym : nsym (unpack l len).length = l.length := by rw [unpack_length, nsym_eq, hlen]
  constructor
  · refine List.ext_getElem (by rw [List.length_take, List.length_take, pack_length, hnsym]) fun j _ hj => ?_
    rw [List.length_take] at hj
    rw [List.getElem_take, List.getElem_take, ← List.getD_eq_getElem _ 0#3, ← List.getD_eq_getElem _ 0#3,
      pack_getD (by omega), packSym_unpack l (by omega)]
  · rw [pack_getD (by omega), packSym_unpack_of_pad l (p := 3 * l.length - 8 * len) (by omega)]
    exact toNat_ushiftRight_shiftLeft ..

/-- Settles O18: `BP.UNPACK` uses the symbol buffer through the first `8 * BLEN` stream bits alone. -/
theorem unpackIgnoresPadAndSurplusSymbols : Obligations.UnpackIgnoresPadAndSurplusSymbols := by
  intro s m t hbits hexec
  have hroom := nsym_bounds s.blen.toNat
  refine issue_setSB (bpUnpackBody_setSB (unpack_congr fun k hk => ?_)) hexec
  calc symStreamBit ((s.setSB m).symsAt (nsym s.blen.toNat)) k
      = symsBit m s.saddr.toNat k := symStreamBit_readRange _ _ (by omega)
    _ = symsBit s.sb s.saddr.toNat k := hbits k hk
    _ = symStreamBit (s.symsAt (nsym s.blen.toNat)) k := (symStreamBit_readRange _ _ (by omega)).symm

/-- Settles O19: three bytes fill eight symbols, so the second stream starts at a symbol. -/
theorem packConcatenatesOnThreeByteBoundaries : Obligations.PackConcatenatesOnThreeByteBoundaries :=
  fun _ b ha => pack_append b ha

/-- Settles O20, by evaluation: three bytes fill eight symbols. -/
theorem scenarioBPacks : Obligations.ScenarioBPacks := by
  unfold Obligations.ScenarioBPacks
  decide

end Sys2Proof.Machine
end

section
/-!
PROOFS. The palette as the corners of the colour cube: the nearest entry of a colour in closed form, and why it is the
only one (spec 42_palette_mapper R150, R152, R153, R156).
-/

namespace Sys2Proof.Machine

open Sys2Proof Sys2Proof.Claims

/-! ### The palette (R150) -/

theorem paletteRow_eq_channels (i : Sym) :
    paletteRow i = (redOf (palette i), greenOf (palette i), blueOf (palette i)) := by
  revert i; decide

theorem paletteRow_injective {i j : Sym} (h : paletteRow i = paletteRow j) : i = j := by
  revert i j; decide

/-- Every channel of the palette is one of the extremes. -/
theorem paletteRow_channels_mem (i : Sym) : (paletteRow i).1 ∈ [0#8, 255#8] ∧ (paletteRow i).2.1 ∈ [0#8, 255#8] ∧
    (paletteRow i).2.2 ∈ [0#8, 255#8] := by
  revert i; decide

/-! ### One channel (R156) -/

theorem gap_eq_channelDist (x y : Byte) : gap x y = channelDist x y := by
  unfold gap channelDist
  omega

theorem gap_eq_zero_iff {x y : Byte} : gap x y = 0 ↔ x = y := by
  rw [gap, Int.natAbs_eq_zero, Int.sub_eq_zero, Int.ofNat_inj, BitVec.toNat_inj]

theorem edge_le (x : Byte) : edge x ≤ 127 := by
  have hx := x.isLt
  unfold edge
  split_ifs <;> omega

theorem gap_nearExtreme (x : Byte) : gap x (nearExtreme x) = edge x := by
  have hx := x.isLt
  unfold gap edge nearExtreme
  split_ifs
  · show ((x.toNat : Int) - 0).natAbs = _; omega
  · show ((x.toNat : Int) - 255).natAbs = _; omega

/-- The other extreme is farther: the two distances add up to 255, which is odd. -/
theorem edge_lt_gap_of_ne {x v : Byte} (hv : v ∈ [0#8, 255#8]) (h : v ≠ nearExtreme x) : edge x < gap x v := by
  have hx := x.isLt
  simp only [List.mem_cons, List.not_mem_nil, or_false] at hv
  unfold nearExtreme at h
  unfold edge
  split_ifs at h ⊢
  · obtain rfl := hv.resolve_left h
    show _ < ((x.toNat : Int) - 255).natAbs; omega
  · obtain rfl := hv.resolve_right h
    show _ < ((x.toNat : Int) - 0).natAbs; omega

theorem edge_le_gap {x v : Byte} (hv : v ∈ [0#8, 255#8]) : edge x ≤ gap x v := by
  by_cases h : v = nearExtreme x
  · rw [h, gap_nearExtreme]
  · exact (edge_lt_gap_of_ne hv h).le

theorem eq_nearExtreme_of_gap_eq {x v : Byte} (hv : v ∈ [0#8, 255#8]) (h : gap x v = edge x) : v = nearExtreme x := by
  by_contra hne
  exact (edge_lt_gap_of_ne hv hne).ne' h

/-- The nearer extreme of a channel is chosen by its top bit. -/
theorem nearExtreme_eq_of_msb (x : Byte) : nearExtreme x = if x.getLsbD 7 then 255#8 else 0#8 := by
  have hmsb : x.getLsbD 7 = decide (128 ≤ x.toNat) := BitVec.msb_eq_decide x
  simp only [nearExtreme, hmsb, decide_eq_true_eq]
  by_cases h : x.toNat ≤ 127
  · rw [if_pos h, if_neg (by omega)]
  · rw [if_neg h, if_pos (by omega)]

/-- The corner's channels are the nearer extremes of the observed ones. -/
theorem paletteRow_cornerSym (r g b : Byte) :
    paletteRow (cornerSym r g b) = (nearExtreme r, nearExtreme g, nearExtreme b) := by
  simp only [nearExtreme_eq_of_msb, cornerSym]
  cases r.getLsbD 7 <;> cases g.getLsbD 7 <;> cases b.getLsbD 7 <;> rfl

/-! ### Three channels (R152) -/

/-- What a metric makes of three channel distances (R152): their sum, or the sum of their squares. -/
def metricSum (metric : BitVec 1) (x y z : Nat) : Nat :=
  if metric = 0#1 then x + y + z else x ^ 2 + y ^ 2 + z ^ 2

theorem dist_eq_metricSum (metric : BitVec 1) (r g b : Byte) (i : Sym) : dist metric r g b i =
    metricSum metric (gap r (paletteRow i).1) (gap g (paletteRow i).2.1) (gap b (paletteRow i).2.2) := rfl

theorem metricSum_le {metric : BitVec 1} {x y z x' y' z' : Nat} (hx : x ≤ x') (hy : y ≤ y') (hz : z ≤ z') :
    metricSum metric x y z ≤ metricSum metric x' y' z' := by
  unfold metricSum
  split_ifs <;> gcongr

/-- Both metrics are strict: where no distance is smaller, the sum is not smaller unless all are equal. -/
theorem eq_of_metricSum_le {metric : BitVec 1} {x y z x' y' z' : Nat} (hx : x ≤ x') (hy : y ≤ y') (hz : z ≤ z')
    (h : metricSum metric x' y' z' ≤ metricSum metric x y z) : x' = x ∧ y' = y ∧ z' = z := by
  unfold metricSum at h
  split_ifs at h
  · omega
  · have hx2 := Nat.pow_le_pow_left hx 2
    have hy2 := Nat.pow_le_pow_left hy 2
    have hz2 := Nat.pow_le_pow_left hz 2
    have eq_of_sq {m n : Nat} : m ^ 2 = n ^ 2 → m = n := (Nat.pow_left_inj two_ne_zero).mp
    exact ⟨eq_of_sq (by omega), eq_of_sq (by omega), eq_of_sq (by omega)⟩

theorem metricSum_eq_zero_iff {metric : BitVec 1} {x y z : Nat} :
    metricSum metric x y z = 0 ↔ x = 0 ∧ y = 0 ∧ z = 0 := by
  unfold metricSum
  split_ifs <;> simp [and_assoc]

/-- The bound of R156. -/
theorem metricSum_edges_le (metric : BitVec 1) (r g b : Byte) :
    metricSum metric (edge r) (edge g) (edge b) ≤ if metric = 0#1 then 381 else 48387 :=
  metricSum_le (edge_le r) (edge_le g) (edge_le b)

/-! ### The distance of an entry, and the corner (R156) -/

/-- The statements' metric value is the model's (R152). -/
theorem dist_eq_metricValue (metric : BitVec 1) (r g b : Byte) (i : Sym) :
    dist metric r g b i = metricValue metric r g b i := by
  simp only [Claims.dist, metricValue, gap_eq_channelDist, paletteRow_eq_channels, sq]

theorem dist_eq_zero_iff {metric : BitVec 1} {r g b : Byte} {i : Sym} :
    dist metric r g b i = 0 ↔ paletteRow i = (r, g, b) := by
  rw [dist_eq_metricSum, metricSum_eq_zero_iff, gap_eq_zero_iff, gap_eq_zero_iff, gap_eq_zero_iff]
  simp only [Prod.ext_iff, eq_comm]

theorem dist_cornerSym (metric : BitVec 1) (r g b : Byte) :
    dist metric r g b (cornerSym r g b) = metricSum metric (edge r) (edge g) (edge b) := by
  simp only [dist_eq_metricSum, paletteRow_cornerSym, gap_nearExtreme]

/-- No entry is as near as the corner but the corner: in each channel the nearer extreme is strictly nearer. -/
theorem eq_cornerSym_of_dist_le {metric : BitVec 1} {r g b : Byte} {i : Sym}
    (h : dist metric r g b i ≤ dist metric r g b (cornerSym r g b)) : i = cornerSym r g b := by
  obtain ⟨hr, hg, hb⟩ := paletteRow_channels_mem i
  rw [dist_cornerSym, dist_eq_metricSum] at h
  obtain ⟨hr', hg', hb'⟩ := eq_of_metricSum_le (edge_le_gap hr) (edge_le_gap hg) (edge_le_gap hb) h
  apply paletteRow_injective
  rw [paletteRow_cornerSym, ← eq_nearExtreme_of_gap_eq hr hr', ← eq_nearExtreme_of_gap_eq hg hg',
    ← eq_nearExtreme_of_gap_eq hb hb']

/-! ### The nearest entry (R153) -/

theorem nearestDist_le_dist (metric : BitVec 1) (r g b : Byte) (i : Sym) :
    nearestDist metric r g b ≤ dist metric r g b i :=
  dist_eq_metricValue metric r g b i ▸ nearestDist_le metric r g b i

/-- The least metric value is one of them. -/
theorem nearestDist_mem_metricValues (metric : BitVec 1) (r g b : Byte) :
    nearestDist metric r g b ∈ metricValues metric r g b := by
  have h0 := metricValue_mem_metricValues metric r g b 0#3
  have hne := List.ne_nil_of_mem h0
  rw [nearestDist, List.foldl_min_eq_min hne, Nat.min_eq_right (List.min_le_of_mem h0)]
  exact List.min_mem hne

theorem getElem_metricValues {metric : BitVec 1} {r g b : Byte} {n : Nat} (h : n < (metricValues metric r g b).length) :
    (metricValues metric r g b)[n] = metricValue metric r g b (BitVec.ofNat 3 n) := by
  simp [metricValues]

/-- The symbol named is an entry at the least distance. -/
theorem dist_nearestSym (metric : BitVec 1) (r g b : Byte) :
    dist metric r g b (nearestSym metric r g b) = nearestDist metric r g b := by
  rw [dist_eq_metricValue, nearestSym, ← getElem_metricValues
    (List.idxOf_lt_length_of_mem (nearestDist_mem_metricValues metric r g b)), List.getElem_idxOf]

theorem nearestSym_eq_cornerSym (metric : BitVec 1) (r g b : Byte) :
    nearestSym metric r g b = cornerSym r g b := by
  apply eq_cornerSym_of_dist_le
  rw [dist_nearestSym]
  exact nearestDist_le_dist metric r g b _

theorem nearestDist_eq_metricSum_edges (metric : BitVec 1) (r g b : Byte) :
    nearestDist metric r g b = metricSum metric (edge r) (edge g) (edge b) := by
  rw [← dist_nearestSym, nearestSym_eq_cornerSym, dist_cornerSym]

/-- The minimum is unique: every other entry is strictly farther than the nearest (R156). -/
theorem nearestDist_lt_dist_of_ne {metric : BitVec 1} {r g b : Byte} {i : Sym} (h : i ≠ nearestSym metric r g b) :
    nearestDist metric r g b < dist metric r g b i := by
  rw [← dist_nearestSym]
  rw [nearestSym_eq_cornerSym] at h ⊢
  exact Nat.lt_of_not_le fun hle => h (eq_cornerSym_of_dist_le hle)

/-- Some entry is within a distance exactly when the nearest one is. -/
theorem exists_dist_le_iff {metric : BitVec 1} {r g b : Byte} {n : Nat} :
    (∃ i, dist metric r g b i ≤ n) ↔ nearestDist metric r g b ≤ n :=
  ⟨fun ⟨i, hi⟩ => (nearestDist_le_dist metric r g b i).trans hi,
    fun h => ⟨nearestSym metric r g b, (dist_nearestSym metric r g b).trans_le h⟩⟩

/-- A colour of the palette is nearest to its own entry, at distance 0 (R157). -/
theorem nearest_of_paletteRow_eq {r g b : Byte} {i : Sym} (metric : BitVec 1) (h : paletteRow i = (r, g, b)) :
    nearestSym metric r g b = i ∧ nearestDist metric r g b = 0 := by
  have hi : dist metric r g b i = 0 := dist_eq_zero_iff.mpr h
  refine ⟨?_, Nat.le_zero.mp (hi ▸ nearestDist_le_dist metric r g b i)⟩
  by_contra hne
  exact absurd (nearestDist_lt_dist_of_ne (Ne.symm hne)) (by rw [hi]; exact Nat.not_lt_zero _)

/-- `PAL_DIST` holds the nearest distance: it fits a register (R41). -/
@[simp] theorem toNat_ofNat_nearestDist (metric : BitVec 1) (r g b : Byte) :
    (BitVec.ofNat 32 (nearestDist metric r g b)).toNat = nearestDist metric r g b := by
  have := nearestDist_le_bound metric r g b
  rw [BitVec.toNat_ofNat]; omega

end Sys2Proof.Machine
end

section
/-!
PROOFS. The two palette commands in a clean state (spec 42_palette_mapper R151, R154, R155).
-/

namespace Sys2Proof.Machine

open Sys2Proof Sys2Proof.Claims

theorem exec_palS2c {s : State} (he : s.err = 0#8) (sym : Sym) :
    exec (.palS2c sym) s = .next (s.setPalRgb (palette sym)) :=
  exec_of_commandBody_ok nofun he rfl

theorem exec_palC2s_of_nearestDist_le {s : State} {r g b : Byte} (he : s.err = 0#8)
    (h : nearestDist s.palCtrl r g b ≤ s.palThresh.toNat) :
    exec (.palC2s r g b) s =
      .next (s.setPalMatch (nearestSym s.palCtrl r g b) (BitVec.ofNat 32 (nearestDist s.palCtrl r g b))) := by
  rcases palC2sBody_cases r g b s with ⟨hlt, -⟩ | ⟨-, hb⟩
  · exact absurd h (Nat.not_le_of_lt hlt)
  · exact exec_of_commandBody_ok nofun he hb

theorem exec_palC2s_of_lt_nearestDist {s : State} {r g b : Byte} (he : s.err = 0#8)
    (h : s.palThresh.toNat < nearestDist s.palCtrl r g b) :
    exec (.palC2s r g b) s = .next (s.raise (unreadableCell r g b)) := by
  rcases palC2sBody_cases r g b s with ⟨-, hb⟩ | ⟨hle, -⟩
  · exact exec_of_commandBody_error nofun he hb
  · exact absurd h (Nat.not_lt_of_le hle)

/-- What a classification that ends without a fault leaves, and that it was within the threshold (R154). -/
theorem eq_of_exec_palC2s_clean {s t : State} {r g b : Byte} (he : s.err = 0#8)
    (h : exec (.palC2s r g b) s = .next t) (ht : t.err = 0#8) :
    nearestDist s.palCtrl r g b ≤ s.palThresh.toNat ∧
      t = s.setPalMatch (nearestSym s.palCtrl r g b) (BitVec.ofNat 32 (nearestDist s.palCtrl r g b)) := by
  have hb := commandBody_ok_of_exec_clean (i := .palC2s r g b) nofun he h ht
  rcases palC2sBody_cases r g b s with ⟨-, hb'⟩ | ⟨hle, hb'⟩
  · cases hb.symm.trans hb'
  · cases hb.symm.trans hb'
    exact ⟨hle, rfl⟩

/-- A classification ends without a fault exactly when the nearest distance is at most the threshold (R154). -/
theorem exec_palC2s_clean_iff {s t : State} {r g b : Byte} (he : s.err = 0#8)
    (h : exec (.palC2s r g b) s = .next t) : t.err = 0#8 ↔ nearestDist s.palCtrl r g b ≤ s.palThresh.toNat := by
  refine ⟨fun ht => (eq_of_exec_palC2s_clean he h ht).1, fun hle => ?_⟩
  rw [exec_palC2s_of_nearestDist_le he hle] at h
  cases h
  exact he

/-- The information word of `UnreadableCell` is the colour in bits 23:0 (R230). -/
theorem unreadableCell_info_eq_ofNat (r g b : Byte) :
    (unreadableCell r g b).info = BitVec.ofNat 32 (r.toNat * 65536 + g.toNat * 256 + b.toNat) := by
  rw [← toNat_rgb, BitVec.ofNat_toNat]
  exact zero_append_eq_setWidth 8 (r ++ (g ++ b))

end Sys2Proof.Machine
end

section
/-!
PROOFS. The statements about the palette mapper, settled.
-/

namespace Sys2Proof.Machine

open Sys2Proof Sys2Proof.Claims

/-- Settles O22: the row of a symbol holds the channels of its palette entry. -/
theorem s2cLoadsThePaletteEntry : Obligations.S2cLoadsThePaletteEntry := by
  refine ⟨by decide, fun s sym he => ?_⟩
  rw [exec_palS2c he, paletteRow_eq_channels, redOf, greenOf, blueOf, rgb_append_channels]
  rfl

/-- Settles O23: the entry named is the nearest, and the least of the nearest because no other is as near. -/
theorem c2sClassifiesToTheNearest : Obligations.C2sClassifiesToTheNearest := by
  refine ⟨fun r g b => ?_, fun s r g b he hsome => ?_, fun s r g b he hnone => ?_⟩
  · rw [encode, toNat_op_append 0x06#8 (r ++ (g ++ b)), toNat_rgb, ← Nat.add_assoc, ← Nat.add_assoc]
    rfl
  · refine ⟨_, _, exec_palC2s_of_nearestDist_le he (exists_dist_le_iff.mp hsome), ?_⟩
    simp only [dist_nearestSym, toNat_ofNat_nearestDist, true_and]
    exact ⟨nearestDist_le_dist _ r g b, fun i hi => nearestDist_lt_dist_of_ne fun h => (h ▸ hi).false⟩
  · rw [exec_palC2s_of_lt_nearestDist he (dist_nearestSym s.palCtrl r g b ▸ hnone _), State.raise,
      unreadableCell_info_eq_ofNat]
    rfl

/-- Settles O24: every clause compares the nearest distance with the threshold. -/
theorem thresholdTestIsStrict : Obligations.ThresholdTestIsStrict := by
  refine ⟨fun s t r g b he h => ?_, fun _ _ => rfl⟩
  rw [exec_palC2s_clean_iff he h, exists_dist_le_iff]
  refine ⟨Iff.rfl, fun h0 => ?_, fun hbound => ?_⟩
  · rw [← exists_dist_le_iff, h0]
    exact exists_congr fun i => Nat.le_zero.trans dist_eq_zero_iff
  · rw [nearestDist_eq_metricSum_edges]
    exact (metricSum_edges_le s.palCtrl r g b).trans hbound

/-- Settles O25: each channel has one nearer extreme, and the palette holds each combination of extremes once. -/
theorem nearestEntryIsTheCorner : Obligations.NearestEntryIsTheCorner := by
  intro metric r g b
  have hsym := nearestSym_eq_cornerSym metric r g b
  have hdist := nearestDist_eq_metricSum_edges metric r g b
  exact ⟨hsym, hdist, fun i hi => nearestDist_lt_dist_of_ne (hsym ▸ hi), hdist ▸ metricSum_edges_le metric r g b⟩

/-- Settles O26: the colour loaded is the symbol's own entry, which is at distance 0. -/
theorem paletteRoundTrip : Obligations.PaletteRoundTrip := by
  intro s t sym he h
  rw [exec_palS2c he] at h
  cases h
  obtain ⟨hsym, hdist⟩ := nearest_of_paletteRow_eq s.palCtrl (paletteRow_eq_channels sym)
  have hexec := exec_palC2s_of_nearestDist_le (s := s.setPalRgb (palette sym)) he (hdist ▸ Nat.zero_le _)
  rw [State.setPalRgb_palCtrl, hsym, hdist] at hexec
  exact hexec

/-- Settles O27: a classification that completes left the nearest distance, which the test compared. -/
theorem classifiedWithinTheThreshold : Obligations.ClassifiedWithinTheThreshold := by
  intro s t r g b he h ht
  obtain ⟨hle, rfl⟩ := eq_of_exec_palC2s_clean he h ht
  rw [State.setPalMatch_palDist, toNat_ofNat_nearestDist]
  exact hle

end Sys2Proof.Machine
end

section
/-!
PROOFS. The CRC unit's update over sequences, and its two commands by their outcomes (spec 43_crc32 R170-R174).
-/

namespace Sys2Proof.Machine

open Sys2Proof

/-! ### The update as a function of the register (R171) -/

@[simp] theorem crc32Update_nil (p : Word) : crc32Update p [] = p := by
  rw [crc32Update, List.foldl_nil, BitVec.xor_assoc, BitVec.xor_self, BitVec.xor_zero]

/-- R173: the value over the first piece carries all that the second piece needs. -/
theorem crc32Update_append (p : Word) (a b : List Byte) :
    crc32Update p (a ++ b) = crc32Update (crc32Update p a) b := by
  simp only [crc32Update, List.foldl_append, BitVec.xor_assoc, BitVec.xor_self, BitVec.xor_zero]

theorem crc32_append (a b : List Byte) : crc32 (a ++ b) = crc32Update (crc32 a) b := crc32Update_append 0#32 a b

/-- The check value (R170): the CRC of the ASCII digits 1 to 9. -/
theorem crc32_check : crc32 [0x31#8, 0x32#8, 0x33#8, 0x34#8, 0x35#8, 0x36#8, 0x37#8, 0x38#8, 0x39#8] =
    0xCBF43926#32 := by
  simp [crc32, crc32Update, crcByte, crcBit, crcPoly, crcMask]

/-! ### The two commands -/

theorem exec_crcCalc_of_fits {s : State} {cont : BitVec 1} (he : s.err = 0#8)
    (hr : s.baddr.toNat + s.blen.toNat ≤ s.cfg.bbSize.toNat) :
    exec (.crcCalc cont) s = .next (s.setCrcValue
      (crc32Update (if cont = 1#1 then s.crcValue else 0#32) (s.bytesAt s.blen.toNat))) := by
  rcases crcCalcBody_cases cont s with ⟨hr', -⟩ | ⟨-, hb⟩
  · omega
  · exact exec_of_commandBody_ok nofun he hb

theorem exec_crcCalc_of_not_fits {s : State} {cont : BitVec 1} (he : s.err = 0#8)
    (hr : s.cfg.bbSize.toNat < s.baddr.toNat + s.blen.toNat) :
    exec (.crcCalc cont) s = .next (s.raise (operandRange 1)) := by
  rcases crcCalcBody_cases cont s with ⟨-, hb⟩ | ⟨hr', -⟩
  · exact exec_of_commandBody_error nofun he hb
  · omega

/-- What a `CRC.CALC` that completes leaves in `CRC_VALUE`. -/
theorem crcValue_of_exec_crcCalc {s t : State} (he : s.err = 0#8) (h : exec (.crcCalc 0#1) s = .next t)
    (ht : t.err = 0#8) : t.crcValue = crc32 (s.bytesAt s.blen.toNat) := by
  have hok : crcCalcBody 0#1 s = .ok t := commandBody_ok_of_exec_clean (i := .crcCalc 0#1) nofun he h ht
  rcases crcCalcBody_cases 0#1 s with ⟨-, hb⟩ | ⟨-, hb⟩ <;> rw [hok] at hb <;> cases hb
  rfl

theorem exec_crcVerify_of_eq {s : State} (he : s.err = 0#8) (h : s.crcValue = s.hdrCrc) :
    exec .crcVerify s = .next s := by
  rcases crcVerifyBody_cases s with ⟨-, hb⟩ | ⟨hne, -⟩
  · exact exec_of_commandBody_ok nofun he hb
  · exact absurd h hne

theorem exec_crcVerify_of_ne {s : State} (he : s.err = 0#8) (h : s.crcValue ≠ s.hdrCrc) :
    exec .crcVerify s = .next (s.raise (checksumMismatch s.crcValue)) := by
  rcases crcVerifyBody_cases s with ⟨heq, -⟩ | ⟨-, hb⟩
  · exact absurd heq h
  · exact exec_of_commandBody_error nofun he hb

end Sys2Proof.Machine
end

section
/-!
PROOFS. Why the CRC sees a burst (spec 43_crc32 R175): no step of the register loses information, and up to four
bytes fall on register bits of their own, so that none of them can undo what another one changed.
-/

namespace Sys2Proof.Machine

open Sys2Proof

/-! ### One bit step -/

/-- The polynomial is added exactly when bit 0 drops out. -/
theorem crcBit_eq_xor (c : Word) : crcBit c = (c >>> 1) ^^^ (if c.getLsbD 0 then crcPoly else 0#32) := by
  unfold crcBit
  split_ifs
  · rfl
  · exact BitVec.xor_zero.symm

/-- The polynomial's bit 31 is set, so the bit that drops out is seen in the result. -/
theorem getLsbD_crcBit_top (c : Word) : (crcBit c).getLsbD 31 = c.getLsbD 0 := by
  have hpoly : crcPoly.getLsbD 31 = true := by decide
  rw [crcBit_eq_xor, BitVec.getLsbD_xor, BitVec.getLsbD_ushiftRight, BitVec.getLsbD_of_ge c 32 le_rfl]
  cases c.getLsbD 0
  · rfl
  · exact hpoly

theorem crcBit_injective : Function.Injective crcBit := by
  intro c d h
  have h0 : c.getLsbD 0 = d.getLsbD 0 := by rw [← getLsbD_crcBit_top, h, getLsbD_crcBit_top]
  have hshift : c >>> 1 = d >>> 1 := by
    rw [crcBit_eq_xor, crcBit_eq_xor d, h0] at h
    exact (BitVec.xor_left_inj _).mp h
  refine BitVec.eq_of_getLsbD_eq fun i hi => ?_
  cases i with
  | zero => exact h0
  | succ i =>
    have hbit := congrArg (BitVec.getLsbD · i) hshift
    simpa [BitVec.getLsbD_ushiftRight, Nat.add_comm] using hbit

/-- A change that leaves bit 0 alone is shifted along and changes nothing else. -/
theorem crcBit_xor_of_even (c : Word) {v : Word} (hv : v.getLsbD 0 = false) :
    crcBit (c ^^^ v) = crcBit c ^^^ (v >>> 1) := by
  rw [crcBit_eq_xor, crcBit_eq_xor c, BitVec.getLsbD_xor, hv, Bool.xor_false, BitVec.ushiftRight_xor_distrib]
  ac_rfl

theorem crcBit_iterate_xor (k : Nat) (c : Word) {v : Word} (hv : ∀ i, i < k → v.getLsbD i = false) :
    crcBit^[k] (c ^^^ v) = crcBit^[k] c ^^^ (v >>> k) := by
  induction k generalizing c v with
  | zero => simp
  | succ k ih =>
    have hv' : ∀ i, i < k → (v >>> 1).getLsbD i = false := fun i hi => by
      rw [BitVec.getLsbD_ushiftRight]
      exact hv (1 + i) (by omega)
    rw [Function.iterate_succ_apply, Function.iterate_succ_apply, crcBit_xor_of_even c (hv 0 k.succ_pos), ih _ hv',
      Nat.add_comm, BitVec.shiftRight_add]

/-! ### Bytes -/

theorem crcByte_left_injective (b : Byte) : Function.Injective (crcByte · b) :=
  (crcBit_injective.iterate 8).comp fun _ _ => (BitVec.xor_left_inj _).mp

theorem foldl_crcByte_injective (l : List Byte) : Function.Injective (l.foldl crcByte ·) := by
  induction l with
  | nil => exact Function.injective_id
  | cons b l ih => exact ih.comp (crcByte_left_injective b)

theorem crc32Update_left_injective (l : List Byte) : Function.Injective (crc32Update · l) :=
  fun _ _ h => (BitVec.xor_left_inj _).mp (foldl_crcByte_injective l ((BitVec.xor_left_inj _).mp h))

/-! ### Bursts (R175) -/

theorem toNat_shiftLeft_eight {w : Word} (hlt : w.toNat < 2 ^ 24) : (w <<< 8).toNat = w.toNat * 2 ^ 8 := by
  rw [BitVec.toNat_shiftLeft, Nat.shiftLeft_eq, Nat.mod_eq_of_lt (by omega)]

/-- Two registers that a byte step brings to a difference `w` below the top byte differed by `w` one byte higher up,
and in the low byte as the two bytes do. -/
theorem xor_eq_of_crcByte_xor_eq {c d w : Word} {b b' : Byte} (hlt : w.toNat < 2 ^ 24)
    (hw : crcByte c b ^^^ crcByte d b' = w) : c ^^^ d = w <<< 8 ^^^ (b ^^^ b').setWidth 32 := by
  have hback : w <<< 8 >>> 8 = w := by
    apply BitVec.eq_of_toNat_eq
    rw [BitVec.toNat_ushiftRight, toNat_shiftLeft_eight hlt, Nat.shiftRight_eq_div_pow,
      Nat.mul_div_cancel _ (by decide)]
  have hlow : ∀ i, i < 8 → (w <<< 8).getLsbD i = false := fun i hi => by simp [hi]
  have hiter : crcBit^[8] (c ^^^ b.setWidth 32) = crcBit^[8] (d ^^^ b'.setWidth 32 ^^^ w <<< 8) := by
    rw [crcBit_iterate_xor 8 _ hlow, hback, ← hw, ← BitVec.xor_comm (crcByte d b'), crcByte, crcByte,
      ← BitVec.xor_assoc, BitVec.xor_self, BitVec.zero_xor]
  have hc : c = d ^^^ b'.setWidth 32 ^^^ w <<< 8 ^^^ b.setWidth 32 := by
    rw [← crcBit_injective.iterate 8 hiter, BitVec.xor_assoc, BitVec.xor_self, BitVec.xor_zero]
  calc c ^^^ d = d ^^^ d ^^^ (w <<< 8 ^^^ (b.setWidth 32 ^^^ b'.setWidth 32)) := by rw [hc]; ac_rfl
    _ = w <<< 8 ^^^ (b ^^^ b').setWidth 32 := by rw [BitVec.xor_self, BitVec.zero_xor, BitVec.setWidth_xor]

/-- Joining a byte in below costs a byte of width. -/
theorem toNat_shiftLeft_eight_xor_lt {w : Word} {n : Nat} (hn : n ≤ 24) (h : w.toNat < 2 ^ n) (v : Byte) :
    (w <<< 8 ^^^ v.setWidth 32).toNat < 2 ^ (n + 8) := by
  have hlt := h.trans_le (Nat.pow_le_pow_right Nat.two_pos hn)
  rw [BitVec.toNat_xor, toNat_shiftLeft_eight hlt, BitVec.toNat_setWidth_of_le (by decide)]
  refine Nat.xor_lt_two_pow ?_ (v.isLt.trans_le (Nat.pow_le_pow_right Nat.two_pos (by omega)))
  rw [pow_add]
  omega

theorem shiftLeft_eight_xor_eq_zero {w : Word} {v : Byte} (hlt : w.toNat < 2 ^ 24)
    (h : w <<< 8 ^^^ v.setWidth 32 = 0#32) : w = 0#32 ∧ v = 0#8 := by
  have hnum := congrArg BitVec.toNat (BitVec.xor_eq_zero_iff.mp h)
  rw [toNat_shiftLeft_eight hlt, BitVec.toNat_setWidth_of_le (by decide)] at hnum
  have hv := v.isLt
  exact ⟨BitVec.eq_of_toNat_eq (show w.toNat = 0 by omega), BitVec.eq_of_toNat_eq (show v.toNat = 0 by omega)⟩

/-- Back through at most four bytes: registers that end equal differed at most in as many low bytes as were taken, and
if they were equal they took the same bytes. -/
theorem xor_lt_and_eq_of_foldl_crcByte_eq {x y : List Byte} {c d : Word} (hlen : x.length = y.length)
    (hx : x.length ≤ 4) (h : x.foldl crcByte c = y.foldl crcByte d) :
    (c ^^^ d).toNat < 2 ^ (8 * x.length) ∧ (c = d → x = y) := by
  induction x generalizing y c d with
  | nil =>
    obtain rfl := List.eq_nil_of_length_eq_zero hlen.symm
    obtain rfl : c = d := h
    exact ⟨by rw [BitVec.xor_self]; decide, fun _ => rfl⟩
  | cons b x ih =>
    obtain ⟨b', y, rfl⟩ := List.exists_cons_of_length_eq_add_one hlen.symm
    have hx' : x.length + 1 ≤ 4 := hx
    obtain ⟨hlt, heq⟩ := ih (Nat.succ.inj hlen) (by omega) h
    have hlt24 := hlt.trans_le (Nat.pow_le_pow_right Nat.two_pos (show 8 * x.length ≤ 24 by omega))
    have hxor := xor_eq_of_crcByte_xor_eq hlt24 rfl
    refine ⟨hxor ▸ toNat_shiftLeft_eight_xor_lt (by omega) hlt _, fun hcd => ?_⟩
    obtain ⟨hw, hb⟩ := shiftLeft_eight_xor_eq_zero hlt24 (hxor ▸ BitVec.xor_eq_zero_iff.mpr hcd)
    rw [heq (BitVec.xor_eq_zero_iff.mp hw), BitVec.xor_eq_zero_iff.mp hb]

/-- Given their number, at most four bytes are determined by the update over them. -/
theorem crc32Update_eq_iff {x y : List Byte} (p : Word) (hlen : x.length = y.length) (hx : x.length ≤ 4) :
    crc32Update p x = crc32Update p y ↔ x = y :=
  ⟨fun h => (xor_lt_and_eq_of_foldl_crcByte_eq hlen hx ((BitVec.xor_left_inj _).mp h)).2 rfl, fun h => h ▸ rfl⟩

end Sys2Proof.Machine
end

section
/-!
PROOFS. The statements about the CRC unit, settled.
-/

namespace Sys2Proof.Machine

open Sys2Proof Sys2Proof.Claims

/-- Settles O28, by whether the range fits. -/
theorem crcCalcComputes : Obligations.CrcCalcComputes :=
  ⟨by decide, by decide, fun _ _ => exec_crcCalc_of_fits, fun _ _ => exec_crcCalc_of_not_fits⟩

/-- Settles O30: the update over a sequence goes on where the update over its first piece ended. -/
theorem crcChainsOverPieces : Obligations.CrcChainsOverPieces := by
  intro s t u hs h ht hu hvalue hr
  rw [exec_crcCalc_of_fits hu hr, if_pos rfl, hvalue, crcValue_of_exec_crcCalc hs h ht, ← crc32_append]
  rfl

/-- Settles O31: the register after the burst differs, and the bytes that follow keep it different. -/
theorem crcDetectsFourByteBursts : Obligations.CrcDetectsFourByteBursts := by
  intro a x y c hlen hx hne h
  simp only [crc32_append] at h
  exact hne ((crc32Update_eq_iff _ hlen hx).mp (crc32Update_left_injective c h))

/-- Settles O29: the update over one byte is its eight bit steps, and the check value is evaluated. -/
theorem crcUpdateFunction : Obligations.CrcUpdateFunction :=
  ⟨crc32Update_nil, fun p x b => crc32Update_append p [x] b, fun _ _ => rfl, crc32_check⟩

/-- Settles O32, by whether the two CRCs are equal. -/
theorem crcVerifyCompares : Obligations.CrcVerifyCompares :=
  ⟨by decide, fun _ => exec_crcVerify_of_eq, fun _ => exec_crcVerify_of_ne⟩

end Sys2Proof.Machine
end

section
/-!
PROOFS. The statements about the control unit, settled.
-/

namespace Sys2Proof.Machine

open Sys2Proof Sys2Proof.Claims

/-- An illegal word at `CMD`: `IllegalCommand` in the clean state, a refusal in the faulted one (R97, R231, R223). -/
theorem issueWord_of_illegal {w : Word} (h : ∀ i, decode w ≠ .ok i) (s : State) :
    issueWord w s = if s.err = 0#8 then .next (s.raise (illegalCommand w)) else .next s := by
  unfold issueWord
  split
  next i hd => exact absurd hd (h i)
  next =>
    split_ifs with hs
    · exact issue_of_error hs rfl
    · exact issue_of_faulted _ hs

/-- Settles O33: `SRST` is format Z, which has no operand bits, so a nonzero argument makes the word illegal. -/
theorem srstClearsTheSession : Obligations.SrstClearsTheSession := by
  refine ⟨by decide, exec_srst, fun s arg hpos hlt => ?_⟩
  have hformat : formatOfOp (BitVec.ofNat 8 0x09) = some .Z := by decide
  exact issueWord_of_illegal (decode_ne_ok_of_operandWidth hformat hpos hlt) s

end Sys2Proof.Machine
end

section
/-!
PROOFS. The statement about the host's sequences (spec 49_host_sequences R201, R205), settled: what follows a packing
does not change what it unpacks to.
-/

namespace Sys2Proof.Machine

open Sys2Proof Sys2Proof.Claims

theorem symStreamBit_append_left {l : List Sym} (z : List Sym) {k : Nat} (h : k < 3 * l.length) :
    symStreamBit (l ++ z) k = symStreamBit l k := by
  rw [symStreamBit, symStreamBit, List.getD_append _ _ _ _ (by omega)]

/-- Unpacking inverts packing, whatever symbols follow (R134, R135). -/
theorem unpack_pack_append (b : List Byte) (z : List Sym) : unpack (pack b ++ z) b.length = b := by
  have hroom := nsym_bounds b.length
  calc unpack (pack b ++ z) b.length
      = unpack (pack b) b.length :=
        unpack_congr fun k hk => symStreamBit_append_left z (by rw [pack_length]; omega)
    _ = b := unpack_pack b

/-- Settles O21: the header's 35 symbols end where the payload's begin, and each packing unpacks with the rest after
it. -/
theorem headerAndPayloadPackedSeparately : Obligations.HeaderAndPayloadPackedSeparately := by
  intro h p z
  have hlen : (pack (headerBytes h)).length = 35 := by rw [pack_length, headerBytes_length]; rfl
  refine ⟨hlen, ?_, ?_⟩
  · rw [← headerBytes_length h, List.append_assoc, unpack_pack_append, parseHeader_headerBytes]
  · rw [List.append_assoc, List.drop_left' hlen, unpack_pack_append]

end Sys2Proof.Machine
end

section
/-!
PROOFS. Taking a fault, keeping it, and always answering (spec 60_exceptions R221-R238).
-/

namespace Sys2Proof.Machine

open Sys2Proof

/-! ### Taking a fault -/

/-- A command that ends in a fault in a clean state raised it: none that completes leaves one (R221, R224). -/
theorem commandBody_error_of_exec_faulted {i : Instr} {s t : State} (he : s.err = 0#8) (h : exec i s = .next t)
    (ht : t.err ≠ 0#8) : ∃ f, commandBody i s = .error f ∧ t = s.raise f := by
  rcases exec_cases h with ⟨-, rfl⟩ | ⟨-, hs, -⟩ | ⟨hi, -, hb⟩ | ⟨-, -, hf⟩
  · exact absurd rfl ht
  · exact absurd he hs
  · rw [commandBody_ok_frame hi hb] at ht
    exact absurd he ht
  · exact hf

/-! ### Keeping it -/

/-- A host action other than the two resets leaves the latch of a faulted state alone (R222, R225). -/
theorem hostAction_latch_of_faulted {act : HostAction} {s t : State} (hs : s.err ≠ 0#8) (hr : act ≠ .hardReset)
    (hw : act ≠ .access (.regWrite 0#32 0x09000000#32)) (h : hostAction act s = .next t) :
    t.err = s.err ∧ t.errInfo = s.errInfo := by
  rcases hostAction_cases h with ⟨ha, -⟩ | ⟨_, rfl⟩ | ⟨_, w, r, -, -, rfl⟩ | ⟨_, v, -, -, rfl⟩ |
    ⟨_, v, -, -, rfl⟩ | ⟨w, u, rfl, hu, rfl⟩
  case inl => exact absurd ha hr
  case inr.inr.inr.inr.inr =>
    rw [issueWord_of_faulted hs fun hsrst => hw (hsrst ▸ rfl)] at hu
    cases hu
    exact ⟨rfl, rfl⟩
  all_goals simp

/-! ### Always answering -/

theorem exists_issue_next (body : State → Except FaultRecord State) (s : State) : ∃ t, issue body s = .next t := by
  by_cases he : s.err = 0#8
  · cases hb : body s with
    | ok t => exact ⟨t, issue_of_ok he hb⟩
    | error f => exact ⟨s.raise f, issue_of_error he hb⟩
  · exact ⟨s, issue_of_faulted body he⟩

theorem exists_exec_next (i : Instr) (s : State) : ∃ t, exec i s = .next t := by
  by_cases hi : i = .srst
  · exact ⟨s.sessionReset, hi ▸ exec_srst s⟩
  · rw [exec_eq_issue hi]
    exact exists_issue_next _ s

theorem exists_issueWord_next (w : Word) (s : State) : ∃ t, issueWord w s = .next t := by
  unfold issueWord
  split
  next i _ => exact exists_exec_next i s
  next => exact exists_issue_next _ s

/-- A register write is an `ERROR`, a word presented to `CMD`, or a store; each is answered. -/
theorem exists_regWrite_next (off w : Word) (s : State) : ∃ t, regWrite off w s = .next t := by
  unfold regWrite
  split
  next => exact ⟨_, rfl⟩
  next =>
    split_ifs
    · obtain ⟨u, hu⟩ := exists_issueWord_next w s
      exact ⟨u.pushReply .ok, by rw [hu, withReply]⟩
    · exact ⟨_, rfl⟩

theorem exists_hostAction_next (act : HostAction) (s : State) : ∃ t, hostAction act s = .next t := by
  cases act with
  | hardReset => exact ⟨_, rfl⟩
  | access a =>
    cases a with
    | regWrite off w => exact exists_regWrite_next off w s
    | _ => exact ⟨_, rfl⟩

end Sys2Proof.Machine
end

section
/-!
PROOFS. The statements about exceptions, settled.
-/

namespace Sys2Proof.Machine

open Sys2Proof Sys2Proof.Claims

/-- Settles O36: a word that the decoder reads as a command selects that command's row. -/
theorem illegalWordRaisesIllegalCommand : Obligations.IllegalWordRaisesIllegalCommand := by
  intro s w rest he hrows
  have hillegal : ∀ i, decode w ≠ .ok i := fun i hd =>
    Bool.eq_false_iff.mp (hrows i) (selectsRow_of_decode hd)
  have hraise : issueWord w (s.setScript rest) = .next ((s.setScript rest).raise (illegalCommand w)) :=
    (issueWord_of_illegal hillegal _).trans (if_pos he)
  rw [step_cmdWrite, hraise]
  rfl

/-- Settles O37: the fault was raised, and a raise writes `ERR` and `ERR_INFO` alone. -/
theorem faultsArePrecise : Obligations.FaultsArePrecise := by
  intro i s t he h ht
  obtain ⟨f, -, rfl⟩ := commandBody_error_of_exec_faulted he h ht
  rfl

/-- Settles O38: the fault was raised by the command's body, whose faults are listed. -/
theorem commandsRaiseOnlyTheirFaults : Obligations.CommandsRaiseOnlyTheirFaults := by
  intro i s t he h ht
  obtain ⟨f, hb, rfl⟩ := commandBody_error_of_exec_faulted he h ht
  rcases commandBody_error hb with ⟨rfl, rfl⟩ | ⟨rfl, rfl | ⟨c, hc, rfl⟩⟩ | ⟨rfl, c, hc, rfl⟩ | ⟨rfl, c, hc, rfl⟩ |
    ⟨r, g, b, rfl, rfl⟩ | ⟨_, rfl, rfl⟩ | ⟨rfl, -, rfl⟩
  · exact ⟨rfl, rfl⟩
  · exact .inl ⟨rfl, rfl⟩
  · exact .inr ⟨rfl, by rw [State.raise_errInfo]; rcases hc with rfl | rfl | rfl | rfl <;> decide⟩
  · exact ⟨rfl, by rw [State.raise_errInfo]; rcases hc with rfl | rfl <;> decide⟩
  · exact ⟨rfl, by rw [State.raise_errInfo]; rcases hc with rfl | rfl | rfl <;> decide⟩
  all_goals exact ⟨rfl, rfl⟩

/-- Settles O39: in a faulted state every word at `CMD` but `SRST` is refused, and no other access writes the latch. -/
theorem latchHoldsUntilReset : Obligations.LatchHoldsUntilReset :=
  fun s _ _ rest hs hr hw h => hostAction_latch_of_faulted (s := s.setScript rest) hs hr hw h

/-- Settles O44: a step is idle or a host action, and every host action answers. -/
theorem everyStepAnswers : Obligations.EveryStepAnswers := by
  intro s
  cases hs : s.script with
  | nil => exact ⟨s, step_nil hs⟩
  | cons act rest =>
    rw [step_cons hs]
    exact exists_hostAction_next act (s.setScript rest)

/-- Settles O43, by the step's rule for an empty script. -/
theorem idleBlockHoldsItsState : Obligations.IdleBlockHoldsItsState := fun _ => step_nil

end Sys2Proof.Machine
end
